-- ==== Sys2Proof/Word.lean ====
section
/-! DEFINITION. The word types of the HX24: what the manual stores, compares or lays out as bits. -/
namespace Sys2Proof

/-- One byte of a record seen by a partner (12_formats). -/
abbrev Byte := BitVec 8

/-- A 24-bit handset number; 0 means none (00_scope 5.1). -/
abbrev Handset := BitVec 24

/-- A 16-bit opaque call tag (00_scope 5.1). -/
abbrev Tag := BitVec 16

/-- A frame mark, 0 to 255, compared around the circle (R15, R17). -/
abbrev Mark := BitVec 8

/-- The 112 bits of one coordination notice, first bit sent uppermost (12_formats 12.1). -/
abbrev NoticeWord := BitVec 112

/-- The 8 bytes of one burst report record, byte 0 uppermost (12_formats 12.2). -/
abbrev BurstWord := BitVec 64

/-- The 35 bytes of the configuration record, byte 1 of the command record uppermost (12_formats 12.3). -/
abbrev ConfigWord := BitVec 280

end Sys2Proof
end

