-- ==== Sys2Proof/Syntax.lean ====
section
/-! DEFINITION. The commands of the HX24: one constructor for each row of spec/opcode_table.json.
The table gives its rows no operands; an operand here is what the rule named by the row needs. -/
namespace Sys2Proof

/-- One piece of work that a block does when it takes a strobe report (R9). R9 gives no order between
blocks, so a strobe command names the order it is done in (log 2). -/
inductive StrobeWork where
  /-- Measurement Unit: ages the overheard list and ends the targeted listens that are due (R60, R67). -/
  | measurement
  /-- Slot Planner: applies the due changes, builds the frame plan, moves the scan cursor (R25, R27, R29). -/
  | slotPlanner
  /-- Registration Controller: the silence of the entry at a table index, at a slow tick (R80). -/
  | silence (i : Fin 64)
  /-- Call Controller: the setup counter of the entry at a table index (R98). -/
  | setup (i : Fin 64)
  /-- Call Controller: the remaining count of a handset's page record (R102). -/
  | page (h : Handset)
  /-- Registration Controller: the remaining count of a find record (R88). -/
  | findRecord (r : Fin 4)
  /-- Handover Engine: the mark or counter of an outbound record (R131, R134, R138, R141). -/
  | outbound (r : Fin 4)
  /-- Handover Engine: the mark or counter of an inbound record (R156, R158). -/
  | inbound (r : Fin 4)
  /-- Station Control: the quiet-period counter, with a regain report of the same strobe (R171). -/
  | quietPeriod
  /-- Station Control: the drain counter, at a slow tick (R173). -/
  | drainLimit
  /-- Host Link: the BEARER OCCUPANCY tally (R186). -/
  | occupancy
deriving DecidableEq, Repr

/-- One piece of work that a block does when it takes a sync loss report (R6, R8, R9); the order between
blocks is the command's (log 3). -/
inductive LossWork where
  /-- Slot Planner: empties the plan change list (R26). -/
  | slotPlanner
  /-- Measurement Unit: empties the targeted listen list (R68). -/
  | measurement
  /-- Handover Engine: releases an outbound record (R144). -/
  | outbound (r : Fin 4)
  /-- Handover Engine: releases an inbound record (R162). -/
  | inbound (r : Fin 4)
  /-- Bus Interface: removes the waiting SEEK, OFFER, TRANSFER and TAKE notices (R120). -/
  | bus
deriving DecidableEq, Repr

/-- The 56 commands, in the table's order. -/
inductive Instr where
  /-- ORDINARY_STROBE (R2): a frame strobe with the epoch line low. -/
  | ordinaryStrobe (order : List StrobeWork)
  /-- EPOCH_STROBE (R4, R5, R6): a frame strobe with the epoch line high. -/
  | epochStrobe (loss : List LossWork) (order : List StrobeWork)
  /-- STROBE_OVERDUE (R8): the strobe-overdue watch expires. -/
  | strobeOverdue (loss : List LossWork)
  /-- PLAN_CHANGE_DUE (R25). -/
  | planChangeDue
  /-- OVERHEARD_EXPIRY (R60): the overheard entry of a handset reaches the overheard life. -/
  | overheardExpiry (h : Handset)
  /-- TARGETED_LISTEN_DUE (R67). -/
  | targetedListenDue
  /-- HOLDOFF_EXPIRY (R46): the holdoff of the entry at a table index reaches 0. -/
  | holdoffExpiry (i : Fin 64)
  /-- IDLE_EXPIRY (R80): the silence of the entry at a table index reaches the idle expiry. -/
  | idleExpiry (i : Fin 64)
  /-- SETUP_COUNTER_EXPIRY (R98): the setup counter of the entry at a table index reaches 0. -/
  | setupCounterExpiry (i : Fin 64)
  /-- PAGE_TIMEOUT (R102): the remaining count of a handset's page record reaches 0. -/
  | pageTimeout (h : Handset)
  /-- FIND_EXPIRY (R88): the remaining count of a find record reaches 0. -/
  | findExpiry (r : Fin 4)
  /-- REPLY_BY_MARK_DUE (R131), of an outbound record. -/
  | replyByMarkDue (r : Fin 4)
  /-- TAKE_TIMEOUT (R134), of an outbound record. -/
  | takeTimeout (r : Fin 4)
  /-- SWITCH_MARK_DUE_OUTBOUND (R138), of an outbound record. -/
  | switchMarkDueOutbound (r : Fin 4)
  /-- FALLBACK_EXPIRY (R141), of an outbound record. -/
  | fallbackExpiry (r : Fin 4)
  /-- SWITCH_MARK_DUE_INBOUND (R156), of an inbound record. -/
  | switchMarkDueInbound (r : Fin 4)
  /-- ARRIVAL_WINDOW_EXPIRY (R158), of an inbound record. -/
  | arrivalWindowExpiry (r : Fin 4)
  /-- QUIET_PERIOD_EXPIRY (R171). -/
  | quietPeriodExpiry
  /-- DRAIN_LIMIT_EXPIRY (R173). -/
  | drainLimitExpiry
  /-- LISTEN_REPORT (R54): the radio returns a burst report record. -/
  | listenReport (record : BurstWord)
  /-- ATTACH (R74): the radio returns a burst report record. -/
  | attach (record : BurstWord)
  /-- PRESENCE (R79): the radio returns a burst report record. -/
  | presence (record : BurstWord)
  /-- CALL (R95): the radio returns a burst report record. -/
  | call (record : BurstWord)
  /-- PAGE_REPLY (R101): the radio returns a burst report record. -/
  | pageReply (record : BurstWord)
  /-- BEARER_REPORT (R35): the radio returns a burst report record. -/
  | bearerReport (record : BurstWord)
  /-- HELD_REPORT (R139): the radio returns a burst report record. -/
  | heldReport (record : BurstWord)
  /-- NOTICE_BEGIN (R111): `idle` further bit times of idle have passed on the bus; `through` says whether all ten
  bits of the kind and sender fields were read back as sent (log 6, log 7). -/
  | noticeBegin (idle : Nat) (through : Bool)
  /-- CONTENTION_LOST (R111): the bit at this place of the kind and sender fields is read back dominant (log 8). -/
  | contentionLost (bit : Fin 10)
  /-- NOTICE_SENT (R112): the last bit of the notice in transmission is sent. -/
  | noticeSent
  /-- YIELD_TIME_EXPIRY (R113): `idle` further bit times of idle have passed on the bus (log 6). -/
  | yieldTimeExpiry (idle : Nat)
  /-- NOTICE_HEARD (R121): a notice of `length` bits was on the bus. -/
  | noticeHeard (length : Nat) (word : NoticeWord)
  /-- TAKE_RECEIVED (R135): the oldest notice of the receive queue, a TAKE, is handled (R123, log 10). -/
  | takeReceived
  /-- DECLINE_RECEIVED (R133). -/
  | declineReceived
  /-- OFFER_RECEIVED (R129). -/
  | offerReceived
  /-- CLAIM_RECEIVED (R81). -/
  | claimReceived
  /-- TRANSFER_RECEIVED (R151). -/
  | transferReceived
  /-- SEEK_RECEIVED (R148). -/
  | seekReceived
  /-- HERE_RECEIVED (R88). -/
  | hereReceived
  /-- FIND_RECEIVED (R89). -/
  | findReceived
  /-- CONFIGURE (R167), with the 35 bytes of the configuration record. -/
  | configure (record : ConfigWord)
  /-- JOIN (R170). -/
  | join
  /-- LEAVE (R172). -/
  | leave
  /-- RESTART (R176). -/
  | restart
  /-- PAGE (R99). -/
  | page (h : Handset) (tag : Tag)
  /-- CLEAR CALL (R104). -/
  | clearCall (h : Handset)
  /-- LOCATE (R87). -/
  | locate (h : Handset)
  /-- QUERY HANDSET (R181). -/
  | queryHandset (h : Handset)
  /-- READ ENTRY (R182), with the index byte as the host sends it. -/
  | readEntry (index : Byte)
  /-- READ STATUS (R183). -/
  | readStatus
  /-- READ EVENT (R185). -/
  | readEvent
  /-- READ TALLIES (R186). -/
  | readTallies
  /-- CLEAR TALLIES (R186). -/
  | clearTallies
  /-- UNDEFINED_COMMAND (R180): a complete transaction whose command code names no command and is not 0. -/
  | undefinedCommand (code : Byte)
  /-- NULL_COMMAND (R178): a complete transaction with command code 0. -/
  | nullCommand
  /-- INCOMPLETE_TRANSACTION (R178): the chip select is released after this many whole bytes, fewer than 64. -/
  | incompleteTransaction (clocked : Nat)
  /-- FULL_RESET (R177): the reset pin or power-up. -/
  | fullReset
deriving DecidableEq, Repr

end Sys2Proof
end

