-- ==== Sys2Proof/Decode.lean ====
section
/-! DEFINITION. The command that a word of the table spells. No row of spec/opcode_table.json gives bits, so no word
spells a command. -/
namespace Sys2Proof

/-- The command spelled by a word of `nbits` bits: none, because the table gives no row a pattern of bits. -/
def decodeTableWord (_nbits _w : Nat) : Option Instr := none

end Sys2Proof
end

