-- ==== Sys2Proof/Config.lean ====
section
/-! DEFINITION. What is fixed while the part runs: the capacities the part is built with, and the configuration record
the host writes before it joins; and the free values, of which nothing is known. -/
namespace Sys2Proof

/-- The capacities of the part, each from the state table of the chapter that owns it. -/
abbrev Config.changePlaces : Nat := 8
/-- R31. -/
abbrev Config.beaconPlaces : Nat := 8
/-- R56. -/
abbrev Config.overheardPlaces : Nat := 96
/-- R63. -/
abbrev Config.listenPlaces : Nat := 8
/-- R99. -/
abbrev Config.pagePlaces : Nat := 8
/-- R129. -/
abbrev Config.candidatePlaces : Nat := 3
/-- R115: all places of the transmit queue. -/
abbrev Config.queuePlaces : Nat := 16
/-- R115: the places open to protocol and enquiry notices. -/
abbrev Config.queueShared : Nat := 14
/-- R116: the occupancy at which the mode becomes PRESSED. -/
abbrev Config.pressedAt : Nat := 12
/-- R116: the occupancy at or below which the mode becomes OPEN. -/
abbrev Config.openAt : Nat := 8
/-- R122. -/
abbrev Config.receivePlaces : Nat := 8
/-- R184. -/
abbrev Config.eventPlaces : Nat := 32
/-- R62: the greatest age of a fresh overheard entry. -/
abbrev Config.freshAge : Nat := 8
/-- R111: the idle bit times before contention. -/
abbrev Config.contentionIdle : Nat := 16
/-- R38: the starting value of an interference cell. -/
abbrev Config.worstCell : Nat := 1008
/-- R40: the filter shift of the interference map. -/
abbrev Config.mapShift : Nat := 2

/-- The epoch field of the n-th FIND this part sends: the spec states none (R87, R108; log 20). -/
opaque Config.freeFindEpoch : Nat → BitVec 8
/-- The hop field of the n-th FIND this part sends: the spec states none (R87, R108; log 20). -/
opaque Config.freeFindHop : Nat → BitVec 8

/-- The scan order (R29, R168). -/
inductive ScanOrder where
  | aligned
  | staggered
deriving DecidableEq, Repr

/-- The configuration record, with the fields of R168 in their order. -/
structure ConfigRecord where
  stationNumber : Nat
  beaconCarrier : Nat
  scanFirstCarrier : Nat
  scanLastCarrier : Nat
  scanFirstSlot : Nat
  scanLastSlot : Nat
  scanOrder : ScanOrder
  /-- w -/
  filterShift : Nat
  /-- p -/
  errorPenalty : Nat
  /-- T -/
  triggerThreshold : Nat
  /-- H -/
  hysteresis : Nat
  collapseCount : Nat
  dropCount : Nat
  handoverMargin : Nat
  offerFloor : Nat
  /-- r -/
  loadWeight : Nat
  cleanLimit : Nat
  offerWindow : Nat
  takeTimeout : Nat
  lead : Nat
  arrivalWindow : Nat
  fallbackWindow : Nat
  holdoff : Nat
  overheardLife : Nat
  idleExpiry : Nat
  pageTimeout : Nat
  findWindow : Nat
  quietPeriod : Nat
  yieldBurst : Nat
  yieldTime : Nat
  drainLimit : Nat
deriving DecidableEq, Repr

/-- The full reset column of R168. -/
def ConfigRecord.fullReset : ConfigRecord where
  stationNumber := 0
  beaconCarrier := 0
  scanFirstCarrier := 0
  scanLastCarrier := 7
  scanFirstSlot := 1
  scanLastSlot := 15
  scanOrder := .staggered
  filterShift := 2
  errorPenalty := 2
  triggerThreshold := 384
  hysteresis := 48
  collapseCount := 3
  dropCount := 60
  handoverMargin := 64
  offerFloor := 256
  loadWeight := 1
  cleanLimit := 320
  offerWindow := 4
  takeTimeout := 4
  lead := 12
  arrivalWindow := 6
  fallbackWindow := 10
  holdoff := 25
  overheardLife := 100
  idleExpiry := 47
  pageTimeout := 200
  findWindow := 6
  quietPeriod := 64
  yieldBurst := 4
  yieldTime := 128
  drainLimit := 8

end Sys2Proof
end

