-- ==== Sys2Proof/Machine/State.lean ====
section
/-! DEFINITION. The state of the HX24 as plain data, one structure for each of its nine blocks (00_scope 2), the queue of
waiting commands, the stops, and the state after a full reset. Where the spec gives a field in some states of a record
only, the field stands in the constructor of those states. -/
namespace Sys2Proof.Machine

/-! ### Shared records -/

/-- A stamp: the epoch set at attach and the hop advanced by each handover (R16). -/
structure Stamp where
  epoch : BitVec 8
  hop : BitVec 8
deriving DecidableEq, Repr

/-- A cell: one slot and one carrier (00_scope 5.1). -/
structure Cell where
  slot : Nat
  carrier : Nat
deriving DecidableEq, Repr

/-! ### Time Base (chapter 1) -/

/-- The strobe-overdue watch (R7). -/
inductive Watch where
  | disarmed
  | running
deriving DecidableEq, Repr

structure TimeBase where
  /-- the mark counter (R2) -/
  mark : Mark
  /-- the mark-known flag (R2) -/
  known : Bool
  /-- the local frame count (R2) -/
  frames : BitVec 32
  watch : Watch
deriving DecidableEq, Repr

/-! ### Measurement Unit (chapter 4) -/

/-- An overheard entry (R56). -/
structure Overheard where
  handset : Handset
  level : Nat
  age : Nat
  cell : Cell
deriving DecidableEq, Repr

/-- A targeted listen request (R63). -/
structure ListenRequest where
  handset : Handset
  cell : Cell
  seeker : Nat
  seek : BitVec 8
  replyBy : Mark
  stamp : Stamp
deriving DecidableEq, Repr

structure Measurement where
  /-- the interference map: cell (s, c) stands at place 8 (s - 1) + c (R53) -/
  map : Vector Nat 120
  /-- the overheard list, most recently heard first (R56) -/
  overheard : List Overheard
  /-- the targeted listen list, oldest first (R63) -/
  listens : List ListenRequest
deriving DecidableEq, Repr

/-! ### Slot Planner (chapter 2) -/

/-- A slot plan entry (R18). -/
inductive SlotEntry where
  | free
  | beacon
  | bearer (carrier : Nat) (h : Handset)
  | reserved (carrier : Nat) (h : Handset)
  | held (carrier : Nat) (h : Handset)
deriving DecidableEq, Repr

/-- Who asked for a plan change: the two kinds of request of R23. -/
inductive Requester where
  | servingSide
  | receivingSide
deriving DecidableEq, Repr

/-- A plan change (R23). -/
structure PlanChange where
  slot : Nat
  entry : SlotEntry
  mark : Mark
  requester : Requester
deriving DecidableEq, Repr

/-- The reasons of a DENY message (12_formats 12.2). -/
inductive DenyReason where
  | leaving | full | stale | notAttached | busy | noPage | noBearer
deriving DecidableEq, Repr

/-- The flag of a beacon header (R30). -/
inductive BeaconFlag where
  | vacant   -- OPEN
  | full
  | leaving
deriving DecidableEq, Repr

/-- A downlink message (12_formats 12.2). -/
inductive Downlink where
  | header (station : Nat) (mark : Mark) (known : Bool) (flag : BeaconFlag)
  | grant (h : Handset)
  | deny (h : Handset) (reason : DenyReason)
  | bearer (h : Handset) (cell : Cell) (tag : Tag)
  | page (h : Handset) (tag : Tag)
  | move (h : Handset) (target : Nat) (newCell : Cell) (switchMark : Mark)
deriving DecidableEq, Repr

/-- A downlink message sent with a frame plan, in the slot that carries it. -/
structure SentMessage where
  slot : Nat
  message : Downlink
deriving DecidableEq, Repr

/-- A standing MOVE (R33). -/
structure Move where
  slot : Nat
  handset : Handset
  target : Nat
  newCell : Cell
  switchMark : Mark
deriving DecidableEq, Repr

/-- What the frame plan gives a slot (R27). A RESERVED slot is idle. -/
inductive PlanRole where
  | idle
  | beacon (carrier : Nat)
  | bearer (carrier : Nat) (h : Handset)
  | held (carrier : Nat) (h : Handset)
  /-- a listen, with the request that gave it when it is a targeted one (R28) -/
  | listen (carrier : Nat) (request : Option ListenRequest)
deriving DecidableEq, Repr

/-- One slot of the plan in force, with its reported mark (R34). -/
structure PlanSlot where
  role : PlanRole
  reported : Bool
deriving DecidableEq, Repr

structure SlotPlanner where
  plan : Vector SlotEntry 16
  changes : List PlanChange
  /-- the scan cursor (R29) -/
  cursor : Nat
  /-- the beacon downlink queue, oldest first (R31) -/
  beaconQ : List Downlink
  /-- the standing MOVE list (R33) -/
  moves : List Move
  /-- the plan in force (R34) -/
  inForce : Vector PlanSlot 16
  /-- the downlink messages sent with the plan in force (R30, R32, R33, R189) -/
  sent : List SentMessage
deriving DecidableEq, Repr

/-! ### Registration Controller (chapter 5) -/

/-- The error ring: the last eight outcomes, true for a fail, and the write position (R41). -/
structure Ring where
  fails : Vector Bool 8
  position : Nat
deriving DecidableEq, Repr

/-- The error ring and miss run of a call (R41, R42). -/
structure Link where
  ring : Ring
  missRun : Nat
deriving DecidableEq, Repr

/-- The state of a held entry, with the fields R70 gives that state. -/
inductive Phase where
  | idle (silence : Nat)
  | setup (cell : Cell) (tag : Tag) (link : Link)
  | inCall (cell : Cell) (tag : Tag) (link : Link)
  | leaving (cell : Cell) (tag : Tag) (link : Link)
  | arriving (cell : Cell) (tag : Tag)
deriving DecidableEq, Repr

/-- An attachment entry that is not FREE (R70). -/
structure Entry where
  handset : Handset
  stamp : Stamp
  phase : Phase
  /-- F -/
  level : Nat
  armed : Bool
  holdoff : Nat
  claimOwed : Bool
deriving DecidableEq, Repr

/-- The answer kept in a find record (R88). -/
structure FindAnswer where
  station : Nat
  stamp : Stamp
  inCall : Bool
deriving DecidableEq, Repr

/-- A find record in use (R88). -/
structure FindRecord where
  handset : Handset
  number : BitVec 8
  remaining : Nat
  answer : Option FindAnswer
deriving DecidableEq, Repr

structure Registration where
  /-- the attachment table; `none` is a FREE entry (R70) -/
  table : Vector (Option Entry) 64
  finds : Vector (Option FindRecord) 4
  findNumber : BitVec 8
deriving DecidableEq, Repr

/-! ### Call Controller (chapter 6) -/

/-- A setup record, of the SETUP entry at a table index (R96). -/
structure SetupRecord where
  entry : Nat
  counter : Nat
  /-- the message-discarded flag -/
  discarded : Bool
deriving DecidableEq, Repr

/-- A page record (R99). -/
structure PageRecord where
  handset : Handset
  tag : Tag
  remaining : Nat
deriving DecidableEq, Repr

structure CallControl where
  allocCursor : Cell
  /-- the tag sequence, 0 to 1023 (R94) -/
  tagSeq : BitVec 10
  setups : List SetupRecord
  /-- the page list in arrival order (R99) -/
  pages : List PageRecord
  /-- the rotation cursor: the handset of the record it stands on (R99, R100) -/
  rotation : Option Handset
deriving DecidableEq, Repr

/-! ### Handover Engine (chapters 8 and 9) -/

/-- The kinds of fire of the trigger (R47). -/
inductive FireKind where
  | threshold | collapse | forced
deriving DecidableEq, Repr

/-- A candidate: an offer held in an outbound record (R127). -/
structure Candidate where
  station : Nat
  merit : Nat
  freeSlots : Nat
deriving DecidableEq, Repr

/-- The state of an outbound record, with the fields R127 gives that state. -/
inductive OutPhase where
  | seeking (replyBy : Mark) (candidates : List Candidate)
  | asking (candidates : List Candidate) (target : Nat) (switchMark : Mark) (counter : Nat)
  | switching (target : Nat) (switchMark : Mark) (newCell : Cell)
  | fallback (target : Nat) (switchMark : Mark) (newCell : Cell) (counter : Nat)
deriving DecidableEq, Repr

/-- An outbound record in use (R127). -/
structure OutRecord where
  entry : Nat
  seek : BitVec 8
  fire : FireKind
  margin : Nat
  phase : OutPhase
deriving DecidableEq, Repr

/-- The state of an inbound record (R155). -/
inductive InPhase where
  | reserved
  | awaiting (counter : Nat)
deriving DecidableEq, Repr

/-- An inbound record in use (R155). -/
structure InRecord where
  entry : Nat
  handset : Handset
  source : Nat
  seek : BitVec 8
  cell : Cell
  switchMark : Mark
  phase : InPhase
deriving DecidableEq, Repr

structure Handover where
  outbound : Vector (Option OutRecord) 4
  seekNumber : BitVec 8
  inbound : Vector (Option InRecord) 4
deriving DecidableEq, Repr

/-! ### Bus Interface (chapter 7) -/

/-- The reasons of a DECLINE notice (12_formats 12.1). -/
inductive DeclineReason where
  | leaving | noSync | late | stale | notHeard | busy | full | noBearer
deriving DecidableEq, Repr

/-- The eight notice kinds (R108), each with what its payload carries (12_formats 12.1). -/
inductive NoticeBody where
  | take (seek : BitVec 8) (newCell : Cell)
  | decline (seek : BitVec 8) (reason : DeclineReason)
  | claim (inCall : Bool)
  | transfer (seek : BitVec 8) (tag : Tag)
  | offer (seek : BitVec 8) (merit : Nat) (freeSlots : Nat)
  | seek (seek : BitVec 8) (cell : Cell) (merit : Nat)
  | here (find : BitVec 8) (inCall : Bool)
  | find (find : BitVec 8)
deriving DecidableEq, Repr

/-- A notice (R108). -/
structure Notice where
  sender : Nat
  dest : Nat
  handset : Handset
  stamp : Stamp
  mark : Mark
  body : NoticeBody
deriving DecidableEq, Repr

/-- A notice in the transmit queue. -/
structure QueuedNotice where
  notice : Notice
  /-- in transmission: from the start of CONTENDING until it is sent or loses contention (R114) -/
  inTransmission : Bool
  /-- a CONTENDING notice that a sync loss removes if it loses contention (R120) -/
  condemned : Bool
deriving DecidableEq, Repr

/-- The queue mode (R116). -/
inductive QueueMode where
  | opened   -- OPEN
  | pressed
deriving DecidableEq, Repr

/-- The transmitter, with the bits it drives (R110, R111). -/
inductive Transmitter where
  | waiting
  | contending (word : NoticeWord)
  | sending (word : NoticeWord)
deriving DecidableEq, Repr

structure Bus where
  /-- the transmit queue, in admission order (R114) -/
  queue : List QueuedNotice
  mode : QueueMode
  tx : Transmitter
  yieldCount : Nat
  /-- the idle watch, in bit times -/
  idle : Nat
  /-- the receive queue, in arrival order (R122) -/
  rx : List Notice
deriving DecidableEq, Repr

/-! ### Station Control (chapter 10) -/

/-- The station states (R166). -/
inductive StationState where
  | unconfigured | configured | listening | active | draining
deriving DecidableEq, Repr

structure StationControl where
  station : StationState
  config : ConfigRecord
  /-- the quiet-period counter, present in LISTENING (R171) -/
  quiet : Option Nat
  /-- the drain counter, present in DRAINING (R173) -/
  drain : Option Nat
deriving DecidableEq, Repr

/-! ### Host Link (chapter 11) -/

/-- The event kinds (12_formats 12.3). -/
inductive EventKind where
  | none | syncLost | syncRegained | callUp | callDown | callFailed | callLost | pageFailed | handedOut | handedIn
  | handoverFailed | arrivalMissed | stampConflict | attached | detached | located | notFound | joined | left
deriving DecidableEq, Repr

/-- The event reasons (12_formats 12.3). -/
inductive Reason where
  | none | overdue | realigned | new | newTenure | expired | superseded | supersededCall | equal | opposed | foundIdle
  | foundInCall | timeout | queue | handset | host | signal | reattach | noConfirm | noSync | drain | leaving
  | noCandidate | complete | late | stale | notHeard | busy | full | noBearer | returned | limit
deriving DecidableEq, Repr

/-- An event record (chapter 11.4). Its level is that of its kind. -/
structure EventRecord where
  kind : EventKind
  handset : Handset
  other : Nat
  tag : Tag
  reason : Reason
  mark : Mark
  lost : Nat
deriving DecidableEq, Repr

/-- The 14 tallies (R186), in the order of its table. -/
inductive Tally where
  | attachGranted | attachDenied | callsUp | callsLost | handoversOut | handoverFailures | handoversIn | arrivalsMissed
  | noticesSent | contentionLosses | noticesReceived | noticesDiscarded | enquiriesDropped | bearerOccupancy
deriving DecidableEq, Repr

/-- The value of every tally (R186). -/
structure Tallies where
  attachGranted : BitVec 32
  attachDenied : BitVec 32
  callsUp : BitVec 32
  callsLost : BitVec 32
  handoversOut : BitVec 32
  handoverFailures : BitVec 32
  handoversIn : BitVec 32
  arrivalsMissed : BitVec 32
  noticesSent : BitVec 32
  contentionLosses : BitVec 32
  noticesReceived : BitVec 32
  noticesDiscarded : BitVec 32
  enquiriesDropped : BitVec 32
  bearerOccupancy : BitVec 32
deriving DecidableEq, Repr

/-- The response codes (12_formats 12.3). -/
inductive ResponseCode where
  | done | busy | configError | notActive | notHere | pageFull | findFull | already | queuePressed | inTransit | noCall
  | badCommand
deriving DecidableEq, Repr

/-- The report of READ STATUS (R183). -/
structure StatusReport where
  station : StationState
  known : Bool
  mark : Mark
  frames : BitVec 32
  entriesUsed : Nat
  committed : Nat
  outboundUsed : Nat
  inboundUsed : Nat
  occupancy : Nat
  mode : QueueMode
  events : Nat
  lost : Nat
deriving DecidableEq, Repr

/-- The report of a held entry (R181, R182). -/
structure HeldReport where
  index : Nat
  entry : Entry
  /-- M formed as it stands -/
  merit : Nat
  setup : Option SetupRecord
  outbound : Option OutRecord
  inbound : Option InRecord
  page : Option PageRecord
  find : Option FindRecord
deriving DecidableEq, Repr

/-- The body of a response record (12_formats 12.3). -/
inductive ResponseBody where
  | empty
  | event (e : EventRecord)
  | tallies (t : Tallies)
  | status (r : StatusReport)
  /-- READ ENTRY of a FREE entry -/
  | freeEntry
  | held (r : HeldReport)
  | overheard (o : Overheard)
  /-- QUERY HANDSET of a handset neither held nor overheard -/
  | notHeard
deriving DecidableEq, Repr

/-- A response record (R178, R190). -/
structure Response where
  command : Byte
  code : ResponseCode
  /-- the index of the failing check of CONFIG ERROR, 0 otherwise -/
  index : Nat
  body : ResponseBody
deriving DecidableEq, Repr

/-- What the part has shifted out in the latest transaction: so many bytes of a response record. -/
structure Shifted where
  response : Response
  bytes : Nat
deriving DecidableEq, Repr

structure HostLink where
  /-- the pending response (R178) -/
  response : Response
  /-- the event queue in arrival order (R184) -/
  events : List EventRecord
  /-- the lost count (R184) -/
  lost : Nat
  tallies : Tallies
  /-- the link's output in the latest transaction (R178) -/
  shifted : Option Shifted
deriving DecidableEq, Repr

/-! ### The machine -/

/-- The whole state. -/
structure State where
  /-- the commands that wait, first in, first out (the model's own) -/
  pending : List Instr
  /-- how many free values have been drawn (the model's own; log 20) -/
  drawn : Nat
  tb : TimeBase
  sp : SlotPlanner
  mu : Measurement
  rc : Registration
  cc : CallControl
  he : Handover
  bus : Bus
  sc : StationControl
  hl : HostLink
deriving DecidableEq, Repr

/-- The stops that are faults. The manual names none. -/
inductive Fault where
  /-- Raised by UNDEFINED_COMMAND with a code that names a command or is 0, and by INCOMPLETE_TRANSACTION of 64 bytes
  or more: the operand contradicts the row, so no such command reaches the part (log 22). Safe: the model stops. -/
  | notThisCommand
deriving DecidableEq, Repr

/-- The stops that are refusals. -/
inductive Refusal where
  /-- Raised by an arm of exec whose command has no meaning yet; no arm is left so. Safe: the model stops. -/
  | notModelled (mnemonic : String)
deriving DecidableEq, Repr

/-- All tallies 0 (R187). -/
def Tallies.zero : Tallies where
  attachGranted := 0
  attachDenied := 0
  callsUp := 0
  callsLost := 0
  handoversOut := 0
  handoverFailures := 0
  handoversIn := 0
  arrivalsMissed := 0
  noticesSent := 0
  contentionLosses := 0
  noticesReceived := 0
  noticesDiscarded := 0
  enquiriesDropped := 0
  bearerOccupancy := 0

/-- The empty response: command code 0, DONE, no content (R178). -/
def Response.emptyResponse : Response := { command := 0, code := .done, index := 0, body := .empty }

/-- The Time Base after a full reset (R12). -/
def TimeBase.reset : TimeBase := { mark := 0, known := false, frames := 0, watch := .disarmed }

/-- An interference map with 1008 in every cell (R55). -/
def Measurement.worstMap : Vector Nat 120 := Vector.replicate 120 Config.worstCell

/-- A frame plan that is idle in every slot (R36). -/
def SlotPlanner.idlePlan : Vector PlanSlot 16 := Vector.replicate 16 { role := .idle, reported := false }

/-- The Slot Planner after a full reset (R36). -/
def SlotPlanner.reset : SlotPlanner where
  plan := Vector.replicate 16 .free
  changes := []
  cursor := 0
  beaconQ := []
  moves := []
  inForce := SlotPlanner.idlePlan
  sent := []

/-- The Measurement Unit after a full reset (R69). -/
def Measurement.reset : Measurement := { map := Measurement.worstMap, overheard := [], listens := [] }

/-- The Registration Controller after a full reset (R90). -/
def Registration.reset : Registration where
  table := Vector.replicate 64 none
  finds := Vector.replicate 4 none
  findNumber := 0

/-- The Call Controller after a full reset (R107). -/
def CallControl.reset : CallControl where
  allocCursor := { slot := 1, carrier := 0 }
  tagSeq := 0
  setups := []
  pages := []
  rotation := none

/-- The Handover Engine after a full reset (R147, R165). -/
def Handover.reset : Handover where
  outbound := Vector.replicate 4 none
  seekNumber := 0
  inbound := Vector.replicate 4 none

/-- The Bus Interface after a full reset (R126). -/
def Bus.reset : Bus := { queue := [], mode := .opened, tx := .waiting, yieldCount := 0, idle := 0, rx := [] }

/-- Station Control after a full reset (R177). -/
def StationControl.reset : StationControl where
  station := .unconfigured
  config := ConfigRecord.fullReset
  quiet := none
  drain := none

/-- The Host Link after a full reset (R187). -/
def HostLink.reset : HostLink where
  response := Response.emptyResponse
  events := []
  lost := 0
  tallies := Tallies.zero
  shifted := none

/-- The machine right after a full reset (R177), with no command waiting. -/
def State.reset : State where
  pending := []
  drawn := 0
  tb := TimeBase.reset
  sp := SlotPlanner.reset
  mu := Measurement.reset
  rc := Registration.reset
  cc := CallControl.reset
  he := Handover.reset
  bus := Bus.reset
  sc := StationControl.reset
  hl := HostLink.reset

end Sys2Proof.Machine
end

