-- ==== Sys2Proof/Machine/Flags.lean ====
section
/-! DEFINITION. Comparisons and signal arithmetic: serial comparison, stamp order, mark distance, the level filter, the
error ring, the merits (chapters 1 and 3). Pure functions of the values they name. -/
namespace Sys2Proof.Machine

/-! ### Serial comparison (R15, R16) -/

/-- R15: the difference (a - b) modulo 256. -/
def serialDiff (a b : BitVec 8) : Nat := (a - b).toNat

/-- R15: a is newer than b at a difference of 1 to 127. -/
def serialNewer (a b : BitVec 8) : Bool := 1 ≤ serialDiff a b && serialDiff a b ≤ 127

/-- R15: a is older than b at a difference of 128 to 255. -/
def serialOlder (a b : BitVec 8) : Bool := 128 ≤ serialDiff a b

/-- R16: epochs first, hops when the epochs are equal. -/
def Stamp.newer (s t : Stamp) : Bool :=
  serialNewer s.epoch t.epoch || (s.epoch == t.epoch && serialNewer s.hop t.hop)

/-- R16. -/
def Stamp.older (s t : Stamp) : Bool :=
  serialOlder s.epoch t.epoch || (s.epoch == t.epoch && serialOlder s.hop t.hop)

/-- R16: the stamp one hop newer. -/
def Stamp.nextHop (s : Stamp) : Stamp := { s with hop := s.hop + 1 }

/-- The four cases of R81. -/
inductive StampOrder where
  | newer | equal | opposed | older
deriving DecidableEq, Repr

/-- R81: the notice's stamp compared with the entry's. -/
def Stamp.compare (notice entry : Stamp) : StampOrder :=
  if notice.newer entry then .newer
  else if notice == entry then .equal
  else if entry.older notice then .opposed
  else .older

/-! ### Mark distance (R17) -/

/-- R17: D(m), formed only while the mark is known (R10). -/
def TimeBase.distance? (tb : TimeBase) (m : Mark) : Option Nat :=
  if tb.known then some (m - tb.mark).toNat else none

/-- Whether D(m) lies in a stated range; fails while the mark is unknown (R10). -/
def TimeBase.within (tb : TimeBase) (m : Mark) (lo hi : Nat) : Bool :=
  match tb.distance? m with
  | some d => lo ≤ d && d ≤ hi
  | none => false

/-- R17: a mark is due when D(m) is 0. -/
def TimeBase.due (tb : TimeBase) (m : Mark) : Bool := tb.within m 0 0

/-- R17, R51: the mark n frames from the current mark. -/
def TimeBase.ahead (tb : TimeBase) (n : Nat) : Mark := tb.mark + BitVec.ofNat 8 n

/-- R3: a strobe that leaves the local frame count at a multiple of 64 is a slow tick. -/
def TimeBase.slowTick (tb : TimeBase) : Bool := tb.frames.toNat % 64 == 0

/-! ### The level filter (R37) -/

/-- R37: the step, floor((d + 2^(w-1)) / 2^w) with d = 16 L - F. -/
def filterDelta (f l w : Nat) : Int := ((16 * l : Int) - f + 2 ^ (w - 1)) / 2 ^ w

/-- R37: F after one filter step. -/
def filterStep (f l w : Nat) : Nat := (f + filterDelta f l w).toNat

/-- R38: the starting value 16 L. -/
def filterStart (l : Nat) : Nat := 16 * l

/-! ### Error ring and miss run (R41, R42) -/

/-- R41: eight good outcomes, write position 0. -/
def Ring.fresh : Ring := { fails := Vector.replicate 8 false, position := 0 }

/-- R41: an outcome over the one eight reports old. -/
def Ring.enter (r : Ring) (fail : Bool) : Ring :=
  { fails := r.fails.setIfInBounds r.position fail, position := if r.position ≥ 7 then 0 else r.position + 1 }

/-- E, the number of fails in the ring (R41). -/
def Ring.errors (r : Ring) : Nat := r.fails.toList.countP id

/-- R41, R42: the ring and miss run of a new call. -/
def Link.fresh : Link := { ring := Ring.fresh, missRun := 0 }

/-- R41, R42: one report, with or without sync, checked or not. -/
def Link.enter (k : Link) (sync check : Bool) : Link :=
  { ring := k.ring.enter (!sync || !check), missRun := if sync then 0 else min 255 (k.missRun + 1) }

/-! ### Entries -/

/-- The ring and miss run of an entry, in SETUP, IN_CALL and LEAVING (R70). -/
def Entry.link? (e : Entry) : Option Link :=
  match e.phase with
  | .idle _ => none
  | .setup _ _ k => some k
  | .inCall _ _ k => some k
  | .leaving _ _ k => some k
  | .arriving _ _ => none

/-- The bearer cell of an entry that is not IDLE (R70). -/
def Entry.cell? (e : Entry) : Option Cell :=
  match e.phase with
  | .idle _ => none
  | .setup c _ _ => some c
  | .inCall c _ _ => some c
  | .leaving c _ _ => some c
  | .arriving c _ => some c

/-- The call tag of an entry, or 0 (R82, R84). -/
def Entry.tag (e : Entry) : Tag :=
  match e.phase with
  | .idle _ => 0
  | .setup _ t _ => t
  | .inCall _ t _ => t
  | .leaving _ t _ => t
  | .arriving _ t => t

/-- Whether an entry is SETUP, IN_CALL, LEAVING or ARRIVING: the in-call flag of R86, and the four states of R173. -/
def Entry.engaged (e : Entry) : Bool :=
  match e.phase with
  | .idle _ => false
  | .setup _ _ _ => true
  | .inCall _ _ _ => true
  | .leaving _ _ _ => true
  | .arriving _ _ => true

/-- Whether an entry is IDLE. -/
def Entry.isIdle (e : Entry) : Bool :=
  match e.phase with
  | .idle _ => true
  | .setup _ _ _ => false
  | .inCall _ _ _ => false
  | .leaving _ _ _ => false
  | .arriving _ _ => false

/-- Whether an entry is SETUP. -/
def Entry.isSetup (e : Entry) : Bool :=
  match e.phase with
  | .idle _ => false
  | .setup _ _ _ => true
  | .inCall _ _ _ => false
  | .leaving _ _ _ => false
  | .arriving _ _ => false

/-- Whether an entry is IN_CALL. -/
def Entry.isInCall (e : Entry) : Bool :=
  match e.phase with
  | .idle _ => false
  | .setup _ _ _ => false
  | .inCall _ _ _ => true
  | .leaving _ _ _ => false
  | .arriving _ _ => false

/-- Whether an entry is LEAVING. -/
def Entry.isLeaving (e : Entry) : Bool :=
  match e.phase with
  | .idle _ => false
  | .setup _ _ _ => false
  | .inCall _ _ _ => false
  | .leaving _ _ _ => true
  | .arriving _ _ => false

/-- Whether an entry is ARRIVING. -/
def Entry.isArriving (e : Entry) : Bool :=
  match e.phase with
  | .idle _ => false
  | .setup _ _ _ => false
  | .inCall _ _ _ => false
  | .leaving _ _ _ => false
  | .arriving _ _ => true

/-- E of an entry, 0 when it holds no ring (R43, section 3.7). -/
def Entry.errors (e : Entry) : Nat :=
  match e.link? with
  | some k => k.ring.errors
  | none => 0

/-- The miss run of an entry, 0 when it holds none. -/
def Entry.missRun (e : Entry) : Nat :=
  match e.link? with
  | some k => k.missRun
  | none => 0

/-- An entry with one report entered in its ring and miss run, if it holds them (R41, R42). -/
def Entry.enterOutcome (e : Entry) (sync check : Bool) : Entry :=
  match e.phase with
  | .idle _ => e
  | .setup c t k => { e with phase := .setup c t (k.enter sync check) }
  | .inCall c t k => { e with phase := .inCall c t (k.enter sync check) }
  | .leaving c t k => { e with phase := .leaving c t (k.enter sync check) }
  | .arriving _ _ => e

/-! ### Merits (R43, R44) -/

/-- R43: M = max(0, F - 16 p E). -/
def servingMerit (f p e : Nat) : Nat := f - 16 * p * e

/-- R44: O = max(0, F_o - 16 r b). -/
def offerMerit (f r b : Nat) : Nat := f - 16 * r * b

/-- R43: M of an entry as it stands. -/
def Entry.merit (e : Entry) (c : ConfigRecord) : Nat := servingMerit e.level c.errorPenalty e.errors

/-! ### Candidates (R129) -/

/-- R129: whether candidate a stands before candidate b: O descending, ties by station number ascending. -/
def Candidate.before (a b : Candidate) : Bool :=
  b.merit < a.merit || (a.merit == b.merit && a.station < b.station)

/-- R129: a candidate placed in an ordered list. -/
def placeInOrder (c : Candidate) : List Candidate → List Candidate
  | [] => [c]
  | d :: ds => if c.before d then c :: d :: ds else d :: placeInOrder c ds

/-- R129: an offer entered in a candidate list: one place for each sender, at most three candidates. -/
def enterCandidate (c : Candidate) (l : List Candidate) : List Candidate :=
  (placeInOrder c (l.filter fun d => d.station != c.station)).take Config.candidatePlaces

/-- R50: the candidates that qualify: O at least M plus the margin. -/
def qualifying (merit margin : Nat) (l : List Candidate) : List Candidate :=
  l.filter fun c => merit + margin ≤ c.merit

end Sys2Proof.Machine
end

