-- ==== Sys2Proof/Machine/Operands.lean ====
section
/-! DEFINITION. The records the part receives and sends, as layouts of bits: the burst report, the configuration record
with its clamping, the notice and its check sequence, the frame plan record and the response record (chapters 7, 10, 12).
-/
namespace Sys2Proof.Machine

/-! ### The burst report record (12.2, R189, R191) -/

/-- The origin of a burst; code 3 is a station (R191). -/
inductive Origin where
  | none | handset | station
deriving DecidableEq, Repr

/-- The message of a burst; codes 6 and 7 are no message (R191). -/
inductive BurstMessage where
  | none
  | attach (epoch : BitVec 8) (target : Nat)
  | presence
  | call
  | pageReply (tag : Tag)
  | clear
deriving DecidableEq, Repr

/-- A burst report as the part reads it. -/
structure Burst where
  slot : Nat
  carrier : Nat
  sync : Bool
  check : Bool
  level : Nat
  origin : Origin
  /-- read only when sync, check and the present bit are set (R189); a number 0 is none (log 13) -/
  identity : Option Handset
  message : BurstMessage
deriving DecidableEq, Repr

/-- The origin of its two-bit code. -/
def Origin.ofCode (c : BitVec 2) : Origin :=
  if c == 0 then .none else if c == 1 then .handset else .station

/-- The message of its three-bit code and the two argument bytes. -/
def BurstMessage.ofCode (k : BitVec 3) (argument : BitVec 16) : BurstMessage :=
  if k == 1 then .attach (argument.extractLsb' 8 8) (argument.extractLsb' 0 8).toNat
  else if k == 2 then .presence
  else if k == 3 then .call
  else if k == 4 then .pageReply argument
  else if k == 5 then .clear
  else .none

/-- R189: the part reads a burst report record. -/
def Burst.ofWord (w : BurstWord) : Burst :=
  let sync := w.getLsbD 55
  let check := w.getLsbD 54
  let readable := sync && check && w.getLsbD 45
  { slot := (w.extractLsb' 60 4).toNat
    carrier := (w.extractLsb' 56 3).toNat
    sync := sync
    check := check
    level := (w.extractLsb' 48 6).toNat
    origin := Origin.ofCode (w.extractLsb' 46 2)
    identity := if readable && w.extractLsb' 16 24 != 0 then some (w.extractLsb' 16 24) else none
    message := if readable then BurstMessage.ofCode (w.extractLsb' 40 3) (w.extractLsb' 0 16) else .none }

/-- A bearer or held report as handed on for the slot's handset (R35): a report of a station, or of another handset, is
one without sync; the level is 0 without sync (R39). -/
structure LinkReport where
  sync : Bool
  check : Bool
  level : Nat
  good : Bool
  clear : Bool
deriving DecidableEq, Repr

/-- R35, R39: a burst taken as a report of handset h's bearer. -/
def Burst.forHandset (b : Burst) (h : Handset) : LinkReport :=
  let stranger := b.sync && b.check && (b.origin == .station || (b.identity.isSome && b.identity != some h))
  let sync := b.sync && !stranger
  { sync := sync
    check := b.check
    level := if sync then b.level else 0
    good := sync && b.check && b.identity == some h
    clear := b.message == .clear }

/-! ### The command record (12.3, R178, R180, R190) -/

/-- Byte k of a transaction as the host clocks it, first byte first; 0 where the host clocked none. -/
def clockedByte (bytes : List Byte) (k : Nat) : Byte := bytes[k]?.getD 0

/-- R190: a handset argument, bytes 1 to 3. -/
def handsetArgument (bytes : List Byte) : Handset := clockedByte bytes 1 ++ clockedByte bytes 2 ++ clockedByte bytes 3

/-- R190: the call tag of PAGE, bytes 4 and 5. -/
def tagArgument (bytes : List Byte) : Tag := clockedByte bytes 4 ++ clockedByte bytes 5

/-- R190: the configuration record of CONFIGURE, bytes 1 to 35. -/
def configArgument (bytes : List Byte) : ConfigWord :=
  BitVec.ofNat 280 ((List.range 35).foldl (fun v k => 256 * v + (clockedByte bytes (k + 1)).toNat) 0)

/-- R178, R180, R190: the command that the bytes of one transaction spell: the code in byte 0, the arguments from byte 1.
Argument bytes that a command does not use are ignored, and so are bytes beyond the 64th; fewer than 64 spell none. -/
def commandOfBytes (bytes : List Byte) : Instr :=
  if bytes.length < 64 then .incompleteTransaction bytes.length
  else
    match (clockedByte bytes 0).toNat with
    | 0 => .nullCommand
    | 1 => .configure (configArgument bytes)
    | 2 => .join
    | 3 => .leave
    | 4 => .restart
    | 5 => .page (handsetArgument bytes) (tagArgument bytes)
    | 6 => .clearCall (handsetArgument bytes)
    | 7 => .locate (handsetArgument bytes)
    | 8 => .queryHandset (handsetArgument bytes)
    | 9 => .readEntry (clockedByte bytes 1)
    | 10 => .readStatus
    | 11 => .readEvent
    | 12 => .readTallies
    | 13 => .clearTallies
    | _ => .undefinedCommand (clockedByte bytes 0)

/-! ### The configuration record (R167, R168, R190) -/

/-- Byte k of the configuration record, 0 to 34. -/
def configByte (w : ConfigWord) (k : Nat) : Nat := (w.extractLsb' (8 * (34 - k)) 8).toNat

/-- The two-byte field that begins at byte k, most significant byte first. -/
def configPair (w : ConfigWord) (k : Nat) : Nat := 256 * configByte w k + configByte w (k + 1)

/-- R167: a value below the range is stored as its lower end, a value above it as its upper end. -/
def clamp (lo hi v : Nat) : Nat := max lo (min hi v)

/-- R167, R168, R190: the record CONFIGURE stores. -/
def configOfWord (w : ConfigWord) : ConfigRecord where
  stationNumber := configByte w 0
  beaconCarrier := clamp 0 7 (configByte w 1)
  scanFirstCarrier := clamp 0 7 (configByte w 2)
  scanLastCarrier := clamp 0 7 (configByte w 3)
  scanFirstSlot := clamp 1 15 (configByte w 4)
  scanLastSlot := clamp 1 15 (configByte w 5)
  scanOrder := if configByte w 6 == 0 then .aligned else .staggered
  filterShift := clamp 1 4 (configByte w 7)
  errorPenalty := clamp 0 7 (configByte w 8)
  triggerThreshold := clamp 0 1008 (configPair w 9)
  hysteresis := clamp 0 255 (configByte w 11)
  collapseCount := clamp 2 8 (configByte w 12)
  dropCount := clamp 10 255 (configByte w 13)
  handoverMargin := clamp 0 255 (configByte w 14)
  offerFloor := clamp 0 1008 (configPair w 15)
  loadWeight := clamp 0 3 (configByte w 17)
  cleanLimit := clamp 0 1008 (configPair w 18)
  offerWindow := clamp 2 15 (configByte w 20)
  takeTimeout := clamp 1 15 (configByte w 21)
  lead := clamp 4 64 (configByte w 22)
  arrivalWindow := clamp 1 15 (configByte w 23)
  fallbackWindow := clamp 1 31 (configByte w 24)
  holdoff := clamp 1 255 (configByte w 25)
  overheardLife := clamp 8 255 (configByte w 26)
  idleExpiry := clamp 1 255 (configByte w 27)
  pageTimeout := clamp 8 255 (configByte w 28)
  findWindow := clamp 2 15 (configByte w 29)
  quietPeriod := clamp 16 255 (configByte w 30)
  yieldBurst := clamp 1 8 (configByte w 31)
  yieldTime := clamp 16 1024 (configPair w 32)
  drainLimit := clamp 1 255 (configByte w 34)

/-- R169: the index of the first JOIN check that fails. -/
def joinFailure? (c : ConfigRecord) : Option Nat :=
  if ¬(1 ≤ c.stationNumber ∧ c.stationNumber ≤ 48) then some 1
  else if ¬ c.scanFirstCarrier ≤ c.scanLastCarrier then some 2
  else if ¬ c.scanFirstSlot ≤ c.scanLastSlot then some 3
  else if ¬ c.takeTimeout + 2 ≤ c.lead then some 4
  else if ¬ c.offerWindow < c.lead then some 5
  else none

/-! ### Notices (R108 to R110, R188, R191) -/

/-- The three classes of notice (R108). -/
inductive NoticeClass where
  | completion | protocol | enquiry
deriving DecidableEq, Repr

/-- The class of a notice (R108). -/
def Notice.kindClass (n : Notice) : NoticeClass :=
  match n.body with
  | .take _ _ => .completion
  | .decline _ _ => .completion
  | .claim _ => .completion
  | .transfer _ _ => .protocol
  | .offer _ _ _ => .protocol
  | .seek _ _ _ => .protocol
  | .here _ _ => .enquiry
  | .find _ => .enquiry

/-- Whether a notice is a HERE, whose refusal ENQUIRIES DROPPED counts (R115). -/
def Notice.isHere (n : Notice) : Bool :=
  match n.body with
  | .here _ _ => true
  | .take _ _ | .decline _ _ | .claim _ | .transfer _ _ | .offer _ _ _ | .seek _ _ _ | .find _ => false

/-- Whether a notice is a SEEK, OFFER, TRANSFER or TAKE, which a sync loss removes (R120). -/
def Notice.bindsMark (n : Notice) : Bool :=
  match n.body with
  | .take _ _ | .transfer _ _ | .offer _ _ _ | .seek _ _ _ => true
  | .decline _ _ | .claim _ | .here _ _ | .find _ => false

/-- Whether a notice is a TAKE, DECLINE or OFFER, which R122 passes over between two other stations. -/
def Notice.isReply (n : Notice) : Bool :=
  match n.body with
  | .take _ _ | .decline _ _ | .offer _ _ _ => true
  | .claim _ | .transfer _ _ | .seek _ _ _ | .here _ _ | .find _ => false

/-- Whether a notice is a holder notice: CLAIM, SEEK, TRANSFER or HERE (R81). -/
def Notice.isHolder (n : Notice) : Bool :=
  match n.body with
  | .claim _ | .transfer _ _ | .seek _ _ _ | .here _ _ => true
  | .take _ _ | .decline _ _ | .offer _ _ _ | .find _ => false

/-- R117: whether two notices have the same coalescing kind and key. -/
def Notice.coalescesWith (n old : Notice) : Bool :=
  match n.body, old.body with
  | .claim _, .claim _ => n.handset == old.handset
  | .offer _ _ _, .offer _ _ _ => n.handset == old.handset && n.dest == old.dest
  | .here _ _, .here _ _ => n.handset == old.handset && n.dest == old.dest
  | _, _ => false

/-- R108: the kind code, the rank of the notice in contention. -/
def NoticeBody.code : NoticeBody → BitVec 4
  | .take _ _ => 1
  | .decline _ _ => 2
  | .claim _ => 3
  | .transfer _ _ => 4
  | .offer _ _ _ => 5
  | .seek _ _ _ => 6
  | .here _ _ => 7
  | .find _ => 8

/-- The decline reason codes (12.1). -/
def DeclineReason.code : DeclineReason → BitVec 4
  | .leaving => 1
  | .noSync => 2
  | .late => 3
  | .stale => 4
  | .notHeard => 5
  | .busy => 6
  | .full => 7
  | .noBearer => 8

/-- R191: the reason of a code; 0 and 9 to 15 are taken as BUSY. -/
def DeclineReason.ofCode (c : BitVec 4) : DeclineReason :=
  if c == 1 then .leaving
  else if c == 2 then .noSync
  else if c == 3 then .late
  else if c == 4 then .stale
  else if c == 5 then .notHeard
  else if c == 6 then .busy
  else if c == 7 then .full
  else if c == 8 then .noBearer
  else .busy

/-- The payload of each kind (12.1); unused bits are 0 (R188). -/
def NoticeBody.payload : NoticeBody → BitVec 32
  | .take k c => k ++ BitVec.ofNat 4 c.slot ++ BitVec.ofNat 3 c.carrier ++ 0#17
  | .decline k r => k ++ r.code ++ 0#20
  | .claim f => BitVec.ofBool f ++ 0#31
  | .transfer k t => k ++ t ++ 0#8
  | .offer k o f => k ++ BitVec.ofNat 10 o ++ BitVec.ofNat 4 f ++ 0#10
  | .seek k c m => k ++ BitVec.ofNat 4 c.slot ++ BitVec.ofNat 3 c.carrier ++ BitVec.ofNat 10 m ++ 0#7
  | .here k f => k ++ BitVec.ofBool f ++ 0#23
  | .find k => k ++ 0#24

/-- The 96 bits before the check sequence (12.1). -/
def Notice.head (n : Notice) : BitVec 96 :=
  n.body.code ++ BitVec.ofNat 6 n.sender ++ BitVec.ofNat 6 n.dest ++ n.handset ++ n.stamp.epoch ++ n.stamp.hop ++ n.mark
    ++ n.body.payload

/-- R110: the register after one more bit. -/
def checkStep (reg : BitVec 16) (bit : Bool) : BitVec 16 :=
  if reg.msb != bit then (reg <<< 1) ^^^ 0x1021#16 else reg <<< 1

/-- R110: the check sequence of 96 bits, taken in the order they are sent. -/
def checkSequence (head : BitVec 96) : BitVec 16 :=
  (List.range 96).foldl (fun reg k => checkStep reg (head.getMsbD k)) 0xFFFF#16

/-- R188: the 112 bits of a notice as sent. -/
def Notice.encode (n : Notice) : NoticeWord := n.head ++ checkSequence n.head

/-- R110: whether the check of 112 received bits passes. -/
def checkPasses (w : NoticeWord) : Bool := checkSequence (w.extractLsb' 16 96) == w.extractLsb' 0 16

/-- The sender field (12.1). -/
def wordSender (w : NoticeWord) : Nat := (w.extractLsb' 102 6).toNat

/-- R191: an offer merit of 1009 to 1023 is taken as 1008. -/
def capMerit (o : Nat) : Nat := min 1008 o

/-- The body of a received notice; none for an undefined kind code (R191). -/
def NoticeBody.ofPayload (code : BitVec 4) (p : BitVec 32) : Option NoticeBody :=
  let number := p.extractLsb' 24 8
  let cell : Cell := { slot := (p.extractLsb' 20 4).toNat, carrier := (p.extractLsb' 17 3).toNat }
  if code == 1 then some (.take number cell)
  else if code == 2 then some (.decline number (DeclineReason.ofCode (p.extractLsb' 20 4)))
  else if code == 3 then some (.claim (p.getLsbD 31))
  else if code == 4 then some (.transfer number (p.extractLsb' 8 16))
  else if code == 5 then some (.offer number (capMerit (p.extractLsb' 14 10).toNat) (p.extractLsb' 10 4).toNat)
  else if code == 6 then some (.seek number cell (p.extractLsb' 7 10).toNat)
  else if code == 7 then some (.here number (p.getLsbD 23))
  else if code == 8 then some (.find number)
  else none

/-- R188, R191: the notice read from 112 bits; none when the kind or the sender is undefined. -/
def Notice.decode (w : NoticeWord) : Option Notice :=
  if wordSender w < 1 || 48 < wordSender w then none
  else
    (NoticeBody.ofPayload (w.extractLsb' 108 4) (w.extractLsb' 16 32)).map fun body =>
      { sender := wordSender w
        dest := (w.extractLsb' 96 6).toNat
        handset := w.extractLsb' 72 24
        stamp := { epoch := w.extractLsb' 64 8, hop := w.extractLsb' 56 8 }
        mark := w.extractLsb' 48 8
        body := body }

/-! ### Records of the radio port (12.2, R189) -/

/-- A value as bytes, most significant byte first. -/
def bytesOf (count : Nat) (v : Nat) : List Byte :=
  (List.range count).map fun k => BitVec.ofNat 8 (v / 256 ^ (count - 1 - k))

/-- The DENY reason codes. -/
def DenyReason.code : DenyReason → BitVec 4
  | .leaving => 1
  | .full => 2
  | .stale => 3
  | .notAttached => 4
  | .busy => 5
  | .noPage => 6
  | .noBearer => 7

/-- The flag codes of a beacon header. -/
def BeaconFlag.code : BeaconFlag → BitVec 2
  | .vacant => 0
  | .full => 1
  | .leaving => 2

/-- The message kind codes. -/
def Downlink.code : Downlink → BitVec 4
  | .header _ _ _ _ => 1
  | .grant _ => 2
  | .deny _ _ => 3
  | .bearer _ _ _ => 4
  | .page _ _ => 5
  | .move _ _ _ _ => 6

/-- The handset field of a message; 0 for a header. -/
def Downlink.handset : Downlink → Handset
  | .header _ _ _ _ => 0
  | .grant h => h
  | .deny h _ => h
  | .bearer h _ _ => h
  | .page h _ => h
  | .move h _ _ _ => h

/-- The argument of a message, from bit 31; unused bits are 0. -/
def Downlink.argument : Downlink → BitVec 32
  | .header st m k f => BitVec.ofNat 6 st ++ m ++ BitVec.ofBool k ++ f.code ++ 0#15
  | .grant _ => 0
  | .deny _ r => r.code ++ 0#28
  | .bearer _ c t => BitVec.ofNat 4 c.slot ++ BitVec.ofNat 3 c.carrier ++ t ++ 0#9
  | .page _ t => t ++ 0#16
  | .move _ st c m => BitVec.ofNat 6 st ++ BitVec.ofNat 4 c.slot ++ BitVec.ofNat 3 c.carrier ++ m ++ 0#11

/-- The 8 bytes of a downlink message record. -/
def SentMessage.record (m : SentMessage) : List Byte :=
  bytesOf 8 (BitVec.ofNat 4 m.slot ++ m.message.code ++ m.message.handset ++ m.message.argument).toNat

/-- The role code of a slot entry of the frame plan record. -/
def PlanRole.code : PlanRole → BitVec 3
  | .idle => 0
  | .beacon _ => 1
  | .bearer _ _ => 2
  | .held _ _ => 3
  | .listen _ _ => 4

/-- The carrier the plan gives a slot that has something to hear; none for an idle slot (R34). -/
def PlanRole.carrier? : PlanRole → Option Nat
  | .idle => none
  | .beacon c => some c
  | .bearer c _ => some c
  | .held c _ => some c
  | .listen c _ => some c

/-- The byte of one slot in the frame plan record. -/
def PlanSlot.record (p : PlanSlot) (messages : Nat) : Byte :=
  p.role.code ++ BitVec.ofNat 3 (p.role.carrier?.getD 0) ++ BitVec.ofNat 2 messages

/-- R189: the frame plan record and the message records that follow it. -/
def SlotPlanner.radioRecord (p : SlotPlanner) : List Byte :=
  BitVec.ofNat 8 p.sent.length
    :: (p.inForce.toList.zipIdx.map fun e => e.1.record (p.sent.countP fun m => m.slot == e.2))
    ++ p.sent.flatMap SentMessage.record

/-! ### Records of the host link (12.3, R190) -/

/-- The event kind codes. -/
def EventKind.code : EventKind → Byte
  | .none => 0
  | .syncLost => 1
  | .syncRegained => 2
  | .callUp => 3
  | .callDown => 4
  | .callFailed => 5
  | .callLost => 6
  | .pageFailed => 7
  | .handedOut => 8
  | .handedIn => 9
  | .handoverFailed => 10
  | .arrivalMissed => 11
  | .stampConflict => 12
  | .attached => 13
  | .detached => 14
  | .located => 15
  | .notFound => 16
  | .joined => 17
  | .left => 18

/-- The fixed level of each kind (chapter 11.4). -/
def EventKind.level : EventKind → Nat
  | .none => 0
  | .syncLost | .callLost => 3
  | .syncRegained | .callUp | .callDown | .callFailed | .pageFailed | .handedOut | .handedIn | .handoverFailed
  | .arrivalMissed | .stampConflict => 2
  | .attached | .detached | .located | .notFound | .joined | .left => 1

/-- The reason codes. -/
def Reason.code : Reason → Byte
  | .none => 0
  | .overdue => 1
  | .realigned => 2
  | .new => 3
  | .newTenure => 4
  | .expired => 5
  | .superseded => 6
  | .supersededCall => 7
  | .equal => 8
  | .opposed => 9
  | .foundIdle => 10
  | .foundInCall => 11
  | .timeout => 12
  | .queue => 13
  | .handset => 14
  | .host => 15
  | .signal => 16
  | .reattach => 17
  | .noConfirm => 18
  | .noSync => 19
  | .drain => 20
  | .leaving => 21
  | .noCandidate => 22
  | .complete => 23
  | .late => 24
  | .stale => 25
  | .notHeard => 26
  | .busy => 27
  | .full => 28
  | .noBearer => 29
  | .returned => 30
  | .limit => 31

/-- The response codes. -/
def ResponseCode.byte : ResponseCode → Byte
  | .done => 1
  | .busy => 2
  | .configError => 3
  | .notActive => 4
  | .notHere => 5
  | .pageFull => 6
  | .findFull => 7
  | .already => 8
  | .queuePressed => 9
  | .inTransit => 10
  | .noCall => 11
  | .badCommand => 12

/-- The station state codes. -/
def StationState.code : StationState → Byte
  | .unconfigured => 0
  | .configured => 1
  | .listening => 2
  | .active => 3
  | .draining => 4

/-- The queue mode codes. -/
def QueueMode.code : QueueMode → Byte
  | .opened => 0
  | .pressed => 1

/-- The level of an event record. -/
def EventRecord.level (e : EventRecord) : Nat := e.kind.level

/-- The 11 bytes of an event record. -/
def EventRecord.record (e : EventRecord) : List Byte :=
  [e.kind.code, BitVec.ofNat 8 e.level] ++ bytesOf 3 e.handset.toNat ++ [BitVec.ofNat 8 e.other]
    ++ bytesOf 2 e.tag.toNat ++ [e.reason.code, e.mark, BitVec.ofNat 8 e.lost]

/-- The 14 tallies in the order of R186. -/
def Tallies.toList (t : Tallies) : List (BitVec 32) :=
  [t.attachGranted, t.attachDenied, t.callsUp, t.callsLost, t.handoversOut, t.handoverFailures, t.handoversIn,
    t.arrivalsMissed, t.noticesSent, t.contentionLosses, t.noticesReceived, t.noticesDiscarded, t.enquiriesDropped,
    t.bearerOccupancy]

/-- The status body, bytes 3 to 17 (12.3). -/
def StatusReport.record (r : StatusReport) : List Byte :=
  [r.station.code, BitVec.ofBool r.known ++ 0#7, r.mark] ++ bytesOf 4 r.frames.toNat
    ++ [r.entriesUsed, r.committed, r.outboundUsed, r.inboundUsed, r.occupancy].map (BitVec.ofNat 8)
    ++ [r.mode.code] ++ [r.events, r.lost].map (BitVec.ofNat 8)

/-- A cell in one byte: slot in bits 7 to 4, carrier in bits 2 to 0. -/
def Cell.byte (c : Cell) : Byte := BitVec.ofNat 4 c.slot ++ 0#1 ++ BitVec.ofNat 3 c.carrier

/-- The entry state codes. -/
def Phase.code : Phase → Byte
  | .idle _ => 1
  | .setup _ _ _ => 2
  | .inCall _ _ _ => 3
  | .leaving _ _ _ => 4
  | .arriving _ _ => 5

/-- The silence of an entry, present in IDLE (R70). -/
def Entry.silence? (e : Entry) : Option Nat :=
  match e.phase with
  | .idle n => some n
  | .setup _ _ _ | .inCall _ _ _ | .leaving _ _ _ | .arriving _ _ => none

/-- The outbound record state codes. -/
def OutPhase.code : OutPhase → Byte
  | .seeking _ _ => 1
  | .asking _ _ _ _ => 2
  | .switching _ _ _ => 3
  | .fallback _ _ _ _ => 4

/-- The fire kind codes. -/
def FireKind.code : FireKind → Byte
  | .threshold => 1
  | .collapse => 2
  | .forced => 3

/-- The current target, in ASKING, SWITCHING and FALLBACK (R127). -/
def OutPhase.target? : OutPhase → Option Nat
  | .seeking _ _ => none
  | .asking _ t _ _ => some t
  | .switching t _ _ => some t
  | .fallback t _ _ _ => some t

/-- The switch mark, in ASKING, SWITCHING and FALLBACK (R127). -/
def OutPhase.switchMark? : OutPhase → Option Mark
  | .seeking _ _ => none
  | .asking _ _ m _ => some m
  | .switching _ m _ => some m
  | .fallback _ m _ _ => some m

/-- The new cell, in SWITCHING and FALLBACK (R127). -/
def OutPhase.newCell? : OutPhase → Option Cell
  | .seeking _ _ | .asking _ _ _ _ => none
  | .switching _ _ c => some c
  | .fallback _ _ c _ => some c

/-- The counter, in ASKING and FALLBACK (R127). -/
def OutPhase.counter? : OutPhase → Option Nat
  | .seeking _ _ | .switching _ _ _ => none
  | .asking _ _ _ n => some n
  | .fallback _ _ _ n => some n

/-- The candidate list, in SEEKING and ASKING (R127). -/
def OutPhase.candidates : OutPhase → List Candidate
  | .seeking _ l => l
  | .asking l _ _ _ => l
  | .switching _ _ _ | .fallback _ _ _ _ => []

/-- The counter of an inbound record, in AWAITING (R155). -/
def InPhase.counter? : InPhase → Option Nat
  | .reserved => none
  | .awaiting n => some n

/-- The inbound record state codes. -/
def InPhase.code : InPhase → Byte
  | .reserved => 1
  | .awaiting _ => 2

/-- The four bytes of one candidate place. -/
def Candidate.record (c : Candidate) : List Byte :=
  [BitVec.ofNat 8 c.station] ++ bytesOf 2 c.merit ++ [BitVec.ofNat 8 c.freeSlots]

/-- A number in one byte, 0 when absent. -/
def byteOr0 (o : Option Nat) : Byte := BitVec.ofNat 8 (o.getD 0)

/-- Form 1 of the entry body, bytes 3 to 56 (12.3). -/
def HeldReport.record (r : HeldReport) : List Byte :=
  let e := r.entry
  let out := r.outbound.map (·.phase)
  let places := (out.map OutPhase.candidates).getD []
  let presence : Byte :=
    BitVec.ofBool e.silence?.isSome ++ BitVec.ofBool e.cell?.isSome ++ BitVec.ofBool e.link?.isSome
      ++ BitVec.ofBool r.setup.isSome ++ BitVec.ofBool r.outbound.isSome ++ BitVec.ofBool r.inbound.isSome
      ++ BitVec.ofBool r.page.isSome ++ BitVec.ofBool r.find.isSome
  let recordPresence : Byte :=
    BitVec.ofBool (out.bind OutPhase.target?).isSome ++ BitVec.ofBool (out.bind OutPhase.newCell?).isSome
      ++ BitVec.ofBool (out.bind OutPhase.counter?).isSome
      ++ BitVec.ofBool (r.inbound.bind (·.phase.counter?)).isSome ++ 0#4
  [1, presence, recordPresence, BitVec.ofNat 8 r.index] ++ bytesOf 3 e.handset.toNat
    ++ [e.stamp.epoch, e.stamp.hop, e.phase.code] ++ bytesOf 2 e.level ++ bytesOf 2 r.merit
    ++ [BitVec.ofBool e.armed ++ BitVec.ofBool e.claimOwed ++ 0#6, BitVec.ofNat 8 e.holdoff, byteOr0 e.silence?,
      (e.cell?.map Cell.byte).getD 0] ++ bytesOf 2 e.tag.toNat
    ++ [byteOr0 (e.link?.map (·.ring.errors)), byteOr0 (e.link?.map (·.missRun)), byteOr0 (r.setup.map (·.counter)),
      (out.map OutPhase.code).getD 0, (r.outbound.map (·.fire.code)).getD 0, (r.outbound.map (·.seek)).getD 0,
      byteOr0 (out.bind OutPhase.target?), (out.bind OutPhase.switchMark?).getD 0,
      ((out.bind OutPhase.newCell?).map Cell.byte).getD 0, byteOr0 (out.bind OutPhase.counter?),
      BitVec.ofNat 8 places.length]
    ++ ((places.flatMap Candidate.record) ++ List.replicate 12 0).take 12
    ++ [(r.inbound.map (·.phase.code)).getD 0, byteOr0 (r.inbound.map (·.source)), (r.inbound.map (·.seek)).getD 0,
      (r.inbound.map (·.cell.byte)).getD 0, (r.inbound.map (·.switchMark)).getD 0,
      byteOr0 (r.inbound.bind (·.phase.counter?))]
    ++ bytesOf 2 ((r.page.map (·.tag.toNat)).getD 0)
    ++ [byteOr0 (r.page.map (·.remaining)), (r.find.map (·.number)).getD 0, byteOr0 (r.find.map (·.remaining))]

/-- The body of a response, from byte 3 (12.3). -/
def ResponseBody.record : ResponseBody → List Byte
  | .empty => []
  | .event e => e.record
  | .tallies t => t.toList.flatMap fun v => bytesOf 4 v.toNat
  | .status r => r.record
  | .freeEntry => [0]
  | .held r => r.record
  | .overheard o => [2] ++ bytesOf 2 o.level ++ [BitVec.ofNat 8 o.age, o.cell.byte]
  | .notHeard => [0]

/-- R190: the 64 bytes of a response record; bytes beyond the body are 0. -/
def Response.record (r : Response) : List Byte :=
  ([r.command, r.code.byte, BitVec.ofNat 8 r.index] ++ r.body.record ++ List.replicate 64 0).take 64

/-- R190: what is shifted out while the host clocks so many bytes: the response record, and 0 beyond its 64th byte. -/
def Response.shiftedOut (r : Response) (clocked : Nat) : List Byte :=
  (r.record ++ List.replicate (clocked - 64) 0).take clocked

/-- The bytes shifted out in the latest transaction, up to the 64th. -/
def Shifted.record (x : Shifted) : List Byte := x.response.shiftedOut x.bytes

end Sys2Proof.Machine
end

