-- ==== Sys2Proof/Machine/Ops.lean ====
section
/-! DEFINITION. The operations that several commands share: events and tallies (chapter 11), writes of the slot plan and
the plan change list (chapter 2), the attachment table (chapter 5), admission to the transmit queue (chapter 7), and drain
completion (chapter 10). Each writes the state of the block that owns it. -/
namespace Sys2Proof.Machine

/-! ### Host Link: events and tallies (R184, R186) -/

/-- The lost count after one more loss; it saturates at 255 (R184). -/
def lostPlusOne (n : Nat) : Nat := min 255 (n + 1)

/-- R184: an event is admitted, displaces the oldest level-1 record, or is discarded. -/
def HostLink.post (h : HostLink) (e : EventRecord) : HostLink :=
  if h.events.length < Config.eventPlaces then { h with events := h.events ++ [e] }
  else if 2 ≤ e.level && h.events.any (fun x => x.level == 1) then
    { h with events := h.events.eraseP (fun x => x.level == 1) ++ [e], lost := lostPlusOne h.lost }
  else { h with lost := lostPlusOne h.lost }

/-- An event with a stated mark field (R11). -/
def State.postWithMark (s : State) (kind : EventKind) (h : Handset) (other : Nat) (tag : Tag) (reason : Reason)
    (mark : Mark) : State :=
  { s with hl := s.hl.post { kind := kind, handset := h, other := other, tag := tag, reason := reason, mark := mark, lost := 0 } }

/-- An event whose mark field is the mark counter as it stands (R106, R146, R164, R175). -/
def State.post (s : State) (kind : EventKind) (h : Handset) (other : Nat) (tag : Tag) (reason : Reason) : State :=
  s.postWithMark kind h other tag reason s.tb.mark

/-- R186: one tally raised by an amount, wrapping. -/
def Tallies.add (t : Tallies) (k : Tally) (n : Nat) : Tallies :=
  match k with
  | .attachGranted => { t with attachGranted := t.attachGranted + BitVec.ofNat 32 n }
  | .attachDenied => { t with attachDenied := t.attachDenied + BitVec.ofNat 32 n }
  | .callsUp => { t with callsUp := t.callsUp + BitVec.ofNat 32 n }
  | .callsLost => { t with callsLost := t.callsLost + BitVec.ofNat 32 n }
  | .handoversOut => { t with handoversOut := t.handoversOut + BitVec.ofNat 32 n }
  | .handoverFailures => { t with handoverFailures := t.handoverFailures + BitVec.ofNat 32 n }
  | .handoversIn => { t with handoversIn := t.handoversIn + BitVec.ofNat 32 n }
  | .arrivalsMissed => { t with arrivalsMissed := t.arrivalsMissed + BitVec.ofNat 32 n }
  | .noticesSent => { t with noticesSent := t.noticesSent + BitVec.ofNat 32 n }
  | .contentionLosses => { t with contentionLosses := t.contentionLosses + BitVec.ofNat 32 n }
  | .noticesReceived => { t with noticesReceived := t.noticesReceived + BitVec.ofNat 32 n }
  | .noticesDiscarded => { t with noticesDiscarded := t.noticesDiscarded + BitVec.ofNat 32 n }
  | .enquiriesDropped => { t with enquiriesDropped := t.enquiriesDropped + BitVec.ofNat 32 n }
  | .bearerOccupancy => { t with bearerOccupancy := t.bearerOccupancy + BitVec.ofNat 32 n }

/-- The value of one tally. -/
def Tallies.get (t : Tallies) (k : Tally) : BitVec 32 :=
  match k with
  | .attachGranted => t.attachGranted
  | .attachDenied => t.attachDenied
  | .callsUp => t.callsUp
  | .callsLost => t.callsLost
  | .handoversOut => t.handoversOut
  | .handoverFailures => t.handoverFailures
  | .handoversIn => t.handoversIn
  | .arrivalsMissed => t.arrivalsMissed
  | .noticesSent => t.noticesSent
  | .contentionLosses => t.contentionLosses
  | .noticesReceived => t.noticesReceived
  | .noticesDiscarded => t.noticesDiscarded
  | .enquiriesDropped => t.enquiriesDropped
  | .bearerOccupancy => t.bearerOccupancy

/-- R186: a tally raised by an amount. -/
def State.countBy (s : State) (k : Tally) (n : Nat) : State :=
  { s with hl := { s.hl with tallies := s.hl.tallies.add k n } }

/-- R186: a tally counted once. -/
def State.count (s : State) (k : Tally) : State := s.countBy k 1

/-- R179: the event line is asserted while the event queue holds a record. -/
def State.eventLine (s : State) : Bool := !s.hl.events.isEmpty

/-! ### Station state -/

/-- Whether the station is ACTIVE or DRAINING. -/
def State.serving (s : State) : Bool := s.sc.station == .active || s.sc.station == .draining

/-- Whether the station is ACTIVE. -/
def State.isActive (s : State) : Bool := s.sc.station == .active

/-- Whether the station listens: LISTENING, ACTIVE or DRAINING (R29). -/
def State.joined (s : State) : Bool :=
  s.sc.station == .listening || s.sc.station == .active || s.sc.station == .draining

/-! ### Slot Planner: the slot plan and the plan change list (R18 to R26, R33) -/

/-- The handset a committed entry serves. -/
def SlotEntry.owner? : SlotEntry → Option Handset
  | .free | .beacon => none
  | .bearer _ h => some h
  | .reserved _ h => some h
  | .held _ h => some h

/-- R18: BEARER, RESERVED and HELD are committed. -/
def SlotEntry.isCommitted (e : SlotEntry) : Bool := e.owner?.isSome

/-- Whether an entry is BEARER for a handset, the only entry that carries its standing MOVE (R33). -/
def SlotEntry.isBearerFor (e : SlotEntry) (h : Handset) : Bool :=
  match e with
  | .bearer _ h' => h' == h
  | .free | .beacon | .reserved _ _ | .held _ _ => false

/-- The entry of a slot; a slot number above 15 names none and reads as FREE. -/
def State.slotEntry (s : State) (slot : Nat) : SlotEntry := s.sp.plan[slot]?.getD .free

/-- b, the committed slot count as the entries stand (R18). -/
def State.committed (s : State) : Nat := s.sp.plan.toList.countP SlotEntry.isCommitted

/-- A write of one slot; a standing MOVE of the slot ends unless the new entry is BEARER for its handset (R33). -/
def SlotPlanner.write (p : SlotPlanner) (slot : Nat) (e : SlotEntry) : SlotPlanner :=
  { p with
    plan := p.plan.setIfInBounds slot e
    moves := p.moves.filter fun m => m.slot != slot || e.isBearerFor m.handset }

/-- A direct write of one slot (section 2.2). -/
def State.writeSlot (s : State) (slot : Nat) (e : SlotEntry) : State := { s with sp := s.sp.write slot e }

/-- Whether the plan change list holds a change for a slot. -/
def State.slotPending (s : State) (slot : Nat) : Bool := s.sp.changes.any fun c => c.slot == slot

/-- The refusals of a commit request (R19). -/
inductive CommitRefusal where
  | slotZero | notServing | notFree | pending
deriving DecidableEq, Repr

/-- R19: the first failing check of a commit request. -/
def State.commitRefusal? (s : State) (slot : Nat) : Option CommitRefusal :=
  if ¬(1 ≤ slot ∧ slot ≤ 15) then some .slotZero
  else if !s.serving then some .notServing
  else if s.slotEntry slot != .free then some .notFree
  else if s.slotPending slot then some .pending
  else none

/-- R20: whether a restore request is accepted: the slot is HELD for the handset. -/
def State.restorable (s : State) (slot : Nat) (h : Handset) : Bool :=
  match s.slotEntry slot with
  | .held _ h' => h' == h
  | .free | .beacon | .bearer _ _ | .reserved _ _ => false

/-- R20: a HELD slot becomes BEARER again on the carrier it held; in any other case the slot is left as it is. -/
def State.restoreSlot (s : State) (slot : Nat) (h : Handset) : State :=
  match s.slotEntry slot with
  | .held c h' => if h' == h then s.writeSlot slot (.bearer c h) else s
  | .free | .beacon | .bearer _ _ | .reserved _ _ => s

/-- R21: a free request: the slot becomes FREE and its pending changes and standing MOVE go; slot 0 is refused. -/
def State.freeSlot (s : State) (slot : Nat) : State :=
  if slot = 0 then s
  else { s with sp := { s.sp.write slot .free with changes := s.sp.changes.filter fun c => c.slot != slot } }

/-- The refusals of a plan change request (R23). -/
inductive ChangeRefusal where
  | slotZero | noSync | outOfRange | notOwner | listFull
deriving DecidableEq, Repr

/-- R23: the first failing check of a plan change request. -/
def State.changeRefusal? (s : State) (c : PlanChange) : Option ChangeRefusal :=
  if ¬(1 ≤ c.slot ∧ c.slot ≤ 15) then some .slotZero
  else if !s.tb.known then some .noSync
  else if !s.tb.within c.mark 1 128 then some .outOfRange
  else if !((s.slotEntry c.slot).isCommitted && (s.slotEntry c.slot).owner? == c.entry.owner?) then some .notOwner
  else if !(s.sp.changes.any (fun d => d.slot == c.slot && d.mark == c.mark)
      || s.sp.changes.length < Config.changePlaces) then some .listFull
  else none

/-- R24: where an admitted change goes: in the place of one for the same slot and mark, else in a free place. -/
def placeChange (c : PlanChange) (l : List PlanChange) : List PlanChange :=
  if l.any (fun d => d.slot == c.slot && d.mark == c.mark) then
    l.map fun d => if d.slot == c.slot && d.mark == c.mark then c else d
  else l ++ [c]

/-- R24: an admitted plan change is placed. -/
def State.admitChange (s : State) (c : PlanChange) : State :=
  { s with sp := { s.sp with changes := placeChange c s.sp.changes } }

/-- R25: the changes whose mark is due write their entries, in list order. -/
def SlotPlanner.applyChanges (p : SlotPlanner) (due : List PlanChange) : SlotPlanner :=
  due.foldl (fun q c => q.write c.slot c.entry) p

/-- R25: every due change is applied and leaves the list; nothing is due while the mark is unknown. -/
def State.applyDueChanges (s : State) : State :=
  { s with
    sp := { s.sp.applyChanges (s.sp.changes.filter fun c => s.tb.due c.mark) with
      changes := s.sp.changes.filter fun c => !s.tb.due c.mark } }

/-- R33: a standing MOVE is set; one for the same slot is replaced. -/
def State.setMove (s : State) (m : Move) : State :=
  { s with sp := { s.sp with moves := s.sp.moves.filter (fun x => x.slot != m.slot) ++ [m] } }

/-- R33: the standing MOVE of a slot is withdrawn. -/
def State.withdrawMove (s : State) (slot : Nat) : State :=
  { s with sp := { s.sp with moves := s.sp.moves.filter fun x => x.slot != slot } }

/-- R22: every slot FREE, with the plan change list and the standing MOVEs. -/
def SlotPlanner.clearPlan (p : SlotPlanner) : SlotPlanner :=
  { p with plan := Vector.replicate 16 .free, changes := [], moves := [] }

/-! ### The beacon downlink queue (R31) -/

/-- R31: whether the beacon downlink queue admits a message. -/
def State.beaconAdmits (s : State) : Bool := s.sp.beaconQ.length < Config.beaconPlaces

/-- R31: a message is admitted at the back, or discarded. -/
def State.offerBeacon (s : State) (m : Downlink) : State :=
  if s.beaconAdmits then { s with sp := { s.sp with beaconQ := s.sp.beaconQ ++ [m] } } else s

/-- R78: a GRANT from the Registration Controller, with its tally. -/
def State.grant (s : State) (h : Handset) : State :=
  if s.beaconAdmits then (s.offerBeacon (.grant h)).count .attachGranted else s.count .attachDenied

/-- R78: a DENY from the Registration Controller, with its tally. -/
def State.denyAttach (s : State) (h : Handset) (r : DenyReason) : State :=
  (s.offerBeacon (.deny h r)).count .attachDenied

/-- R106: a DENY from the Call Controller counts in no tally. -/
def State.denyCall (s : State) (h : Handset) (r : DenyReason) : State := s.offerBeacon (.deny h r)

/-! ### The attachment table (R70 to R72) -/

/-- The entry at a table index; none when it is FREE. -/
def State.entry? (s : State) (i : Nat) : Option Entry := (s.rc.table[i]?).join

/-- The entry at a table index is written. -/
def State.setEntry (s : State) (i : Nat) (e : Option Entry) : State :=
  { s with rc := { s.rc with table := s.rc.table.setIfInBounds i e } }

/-- The entry at a table index is changed, if it is held. -/
def State.modifyEntry (s : State) (i : Nat) (f : Entry → Entry) : State :=
  match s.entry? i with
  | some e => s.setEntry i (some (f e))
  | none => s

/-- Whether a table place holds a handset. -/
def holdsHandset (h : Handset) (o : Option Entry) : Bool :=
  match o with
  | some e => e.handset == h
  | none => false

/-- The index of a handset's entry. -/
def State.lookup (s : State) (h : Handset) : Option Nat := s.rc.table.toList.findIdx? (holdsHandset h)

/-- R70: whether h is held here. -/
def State.isHeld (s : State) (h : Handset) : Bool := (s.lookup h).isSome

/-- The entry of a handset, with its index. -/
def State.find? (s : State) (h : Handset) : Option (Nat × Entry) :=
  match s.lookup h with
  | some i => (s.entry? i).map fun e => (i, e)
  | none => none

/-- R71: the lowest FREE table index. -/
def State.freeIndex (s : State) : Option Nat := s.rc.table.toList.findIdx? Option.isNone

/-- The number of entries that are not FREE (R183). -/
def State.entriesUsed (s : State) : Nat := s.rc.table.toList.countP Option.isSome

/-- R99: the rotation cursor after the record at place k of a list is removed from under it: the record that followed,
or the first, or none. -/
def rotationAfter (rest : List PageRecord) (k : Nat) : Option Handset :=
  match rest[k]? with
  | some p => some p.handset
  | none => rest.head?.map (·.handset)

/-- R99: a page record is removed; the cursor moves on if it stood there. -/
def CallControl.removePage (c : CallControl) (h : Handset) : CallControl :=
  match c.pages.findIdx? (fun p => p.handset == h) with
  | none => c
  | some k =>
    { c with
      pages := c.pages.eraseIdx k
      rotation := if c.rotation == some h then rotationAfter (c.pages.eraseIdx k) k else c.rotation }

/-- R99: a handset's page record is removed, with no event. -/
def State.removePage (s : State) (h : Handset) : State := { s with cc := s.cc.removePage h }

/-- The page record of a handset. -/
def State.page? (s : State) (h : Handset) : Option PageRecord := s.cc.pages.find? fun p => p.handset == h

/-- R72: an entry is freed; the handset's page ends first, without PAGE FAILED. -/
def State.freeEntry (s : State) (i : Nat) : State :=
  match s.entry? i with
  | some e => (s.removePage e.handset).setEntry i none
  | none => s

/-- The entry becomes IDLE with silence 0; its cell, tag, ring and miss run are dropped (R98, R103, R105). -/
def State.toIdle (s : State) (i : Nat) : State := s.modifyEntry i fun e => { e with phase := .idle 0 }

/-! ### Records of calls and handovers -/

/-- The setup record of an entry. -/
def State.setup? (s : State) (i : Nat) : Option SetupRecord := s.cc.setups.find? fun r => r.entry == i

/-- The setup record of an entry is freed. -/
def State.dropSetup (s : State) (i : Nat) : State :=
  { s with cc := { s.cc with setups := s.cc.setups.filter fun r => r.entry != i } }

/-- An outbound record. -/
def State.outRecord? (s : State) (r : Nat) : Option OutRecord := (s.he.outbound[r]?).join

/-- An inbound record. -/
def State.inRecord? (s : State) (r : Nat) : Option InRecord := (s.he.inbound[r]?).join

/-- An outbound record is written. -/
def State.setOut (s : State) (r : Nat) (o : Option OutRecord) : State :=
  { s with he := { s.he with outbound := s.he.outbound.setIfInBounds r o } }

/-- An inbound record is written. -/
def State.setIn (s : State) (r : Nat) (o : Option InRecord) : State :=
  { s with he := { s.he with inbound := s.he.inbound.setIfInBounds r o } }

/-- Whether a place of the outbound records belongs to an entry. -/
def outOwnedBy (i : Nat) (o : Option OutRecord) : Bool :=
  match o with
  | some r => r.entry == i
  | none => false

/-- Whether a place of the inbound records belongs to an entry. -/
def inOwnedBy (i : Nat) (o : Option InRecord) : Bool :=
  match o with
  | some r => r.entry == i
  | none => false

/-- R127: the outbound record of an entry. -/
def State.outOf (s : State) (i : Nat) : Option Nat := s.he.outbound.toList.findIdx? (outOwnedBy i)

/-- R155: the inbound record of an entry. -/
def State.inOf (s : State) (i : Nat) : Option Nat := s.he.inbound.toList.findIdx? (inOwnedBy i)

/-- The outbound record of an entry is freed, if it has one. -/
def State.dropOut (s : State) (i : Nat) : State :=
  match s.outOf i with
  | some r => s.setOut r none
  | none => s

/-- The inbound record of an entry is freed, if it has one. -/
def State.dropIn (s : State) (i : Nat) : State :=
  match s.inOf i with
  | some r => s.setIn r none
  | none => s

/-- The slot of an entry's bearer cell is freed, with its pending changes and standing MOVE (R21). -/
def State.freeBearer (s : State) (e : Entry) : State :=
  match e.cell? with
  | some c => s.freeSlot c.slot
  | none => s

/-- R33: the standing MOVE of an entry's bearer slot is withdrawn. -/
def State.withdrawMoveOf (s : State) (i : Nat) : State :=
  match (s.entry? i).bind Entry.cell? with
  | some c => s.withdrawMove c.slot
  | none => s

/-- What goes with a call when it ends here: its slot, its setup record, its outbound and inbound records, without
CALL FAILED, HANDOVER FAILED or ARRIVAL MISSED (R76, R82, R103, R105, R143, R160). -/
def State.releaseCall (s : State) (i : Nat) (e : Entry) : State :=
  (((s.freeBearer e).dropSetup i).dropOut i).dropIn i

/-! ### Bus Interface: admission to the transmit queue (R115 to R119) -/

/-- The station number as the sender field carries it (R108, R188). -/
def State.stationNumber (s : State) : Nat := s.sc.config.stationNumber

/-- R114: the number of notices in the queue, the one in transmission included. -/
def State.occupancy (s : State) : Nat := s.bus.queue.length

/-- The refusals of an offered notice (R115). -/
inductive NoticeRefusal where
  | notServing | pressed | full
deriving DecidableEq, Repr

/-- The decision on an offered notice (R115). -/
inductive Admission where
  | refused (r : NoticeRefusal)
  /-- admitted in the place of a waiting notice (R117) -/
  | coalesced (place : Nat)
  | appended
deriving DecidableEq, Repr

/-- R117: the oldest waiting notice with the same kind and key. -/
def State.coalescePlace? (s : State) (n : Notice) : Option Nat :=
  s.bus.queue.findIdx? fun q => !q.inTransmission && n.coalescesWith q.notice

/-- R115: the cases by occupancy, after those of station state, mode and coalescing. -/
def State.plainAdmission (s : State) (n : Notice) : Admission :=
  if n.kindClass == .completion && s.occupancy < Config.queuePlaces then .appended
  else if n.kindClass != .completion && s.occupancy < Config.queueShared then .appended
  else .refused .full

/-- R115: the first case that applies. -/
def State.admission (s : State) (n : Notice) : Admission :=
  if !s.serving then .refused .notServing
  else if n.kindClass == .enquiry && s.bus.mode == .pressed then .refused .pressed
  else
    match s.coalescePlace? n with
    | some k => .coalesced k
    | none => s.plainAdmission n

/-- R115: whether an offered notice is admitted. -/
def State.admits (s : State) (n : Notice) : Bool :=
  match s.admission n with
  | .refused _ => false
  | .coalesced _ => true
  | .appended => true

/-- R116: the mode after an admission at the back. -/
def modeAfterRise (mode : QueueMode) (occupancy : Nat) : QueueMode :=
  if Config.pressedAt ≤ occupancy then .pressed else mode

/-- R116: the mode after a fall in occupancy. -/
def modeAfterFall (mode : QueueMode) (occupancy : Nat) : QueueMode :=
  if occupancy ≤ Config.openAt then .opened else mode

/-- A notice at the back of the queue. -/
def Bus.append (b : Bus) (n : Notice) : Bus :=
  { b with
    queue := b.queue ++ [{ notice := n, inTransmission := false, condemned := false }]
    mode := modeAfterRise b.mode (b.queue.length + 1) }

/-- R117: every field of the waiting notice at a place is replaced. -/
def Bus.coalesce (b : Bus) (place : Nat) (n : Notice) : Bus :=
  { b with queue := b.queue.modify place fun q => { q with notice := n } }

/-- R115: a notice is offered; a refused HERE counts in ENQUIRIES DROPPED, with PRESSED or FULL. -/
def State.offer (s : State) (n : Notice) : State :=
  match s.admission n with
  | .refused .notServing => s
  | .refused .pressed => if n.isHere then s.count .enquiriesDropped else s
  | .refused .full => if n.isHere then s.count .enquiriesDropped else s
  | .coalesced k => { s with bus := s.bus.coalesce k n }
  | .appended => { s with bus := s.bus.append n }

/-- R86: the CLAIM of an entry as it stands. -/
def State.claimOf (s : State) (e : Entry) : Notice where
  sender := s.stationNumber
  dest := 0
  handset := e.handset
  stamp := e.stamp
  mark := s.tb.mark
  body := .claim e.engaged

/-- R86, R118: a CLAIM is offered for an entry; the claim-owed flag says whether it was refused. -/
def State.offerClaim (s : State) (i : Nat) : State :=
  match s.entry? i with
  | some e =>
    (s.offer (s.claimOf e)).modifyEntry i fun x => { x with claimOwed := !s.admits (s.claimOf e) }
  | none => s

/-- R119: the owed CLAIMs of these table indices are offered in turn, up to the first refusal. -/
def readmitFrom : List Nat → State → State
  | [], s => s
  | i :: rest, s =>
    match s.entry? i with
    | some e =>
      if e.claimOwed then
        if s.admits (s.claimOf e) then readmitFrom rest (s.offerClaim i) else s
      else readmitFrom rest s
    | none => readmitFrom rest s

/-- R116, R119: what follows whenever occupancy falls. -/
def State.occupancyFell (s : State) : State :=
  readmitFrom (List.range 64) { s with bus := { s.bus with mode := modeAfterFall s.bus.mode s.occupancy } }

/-- R112, R126: the transmit queue is discarded; a notice in SENDING stays until it is sent, one in CONTENDING goes with
the rest and the part stops driving (log 9). -/
def Bus.discardQueue (b : Bus) : Bus :=
  match b.tx with
  | .waiting => { b with queue := [], mode := .opened }
  | .contending _ => { b with queue := [], mode := .opened, tx := .waiting }
  | .sending _ => { b with queue := b.queue.filter (·.inTransmission), mode := .opened }

/-- R126: the Bus Interface where service ends or begins: both queues discarded, mode OPEN, yield counter 0. -/
def Bus.clear (b : Bus) : Bus := { b.discardQueue with yieldCount := 0, rx := [] }

/-! ### Lost calls and drain completion (R106, R173, R174) -/

/-- R106: CALL LOST is posted and counted. -/
def State.callLost (s : State) (e : Entry) (other : Nat) (reason : Reason) : State :=
  (s.post .callLost e.handset other e.tag reason).count .callsLost

/-- R174: the other station of a call lost by the drain: the current target, the source, or 0. -/
def State.drainOther (s : State) (i : Nat) (e : Entry) : Nat :=
  if e.isLeaving then
    (((s.outOf i).bind s.outRecord?).bind (·.phase.target?)).getD 0
  else if e.isArriving then
    (((s.inOf i).bind s.inRecord?).map (·.source)).getD 0
  else 0

/-- R174 step 1, for one table index. -/
def State.loseByDrain (s : State) (i : Nat) : State :=
  match s.entry? i with
  | some e => if e.engaged then s.callLost e (s.drainOther i e) .drain else s
  | none => s

/-- R174 steps 1 to 4: the calls are lost in ascending index, then everything but the kept state is cleared. -/
def State.clearService (s : State) : State :=
  let t := (List.range 64).foldl State.loseByDrain s
  { t with
    sp := { t.sp.clearPlan with beaconQ := [] }
    mu := { t.mu with overheard := [], listens := [] }
    rc := { t.rc with table := Vector.replicate 64 none, finds := Vector.replicate 4 none }
    cc := { t.cc with setups := [], pages := [], rotation := none }
    he := { t.he with outbound := Vector.replicate 4 none, inbound := Vector.replicate 4 none }
    bus := t.bus.clear }

/-- R174: drain completion, with reason COMPLETE or LIMIT. -/
def State.completeDrain (s : State) (reason : Reason) : State :=
  let t := s.clearService.post .left 0 0 (BitVec.ofNat 16 s.entriesUsed) reason
  { t with sc := { t.sc with station := .configured, drain := none } }

/-- R173: the drain condition: no entry is SETUP, IN_CALL, LEAVING or ARRIVING. -/
def State.drained (s : State) : Bool :=
  s.rc.table.toList.all fun o => match o with
    | some e => !e.engaged
    | none => true

/-- R173: the drain condition is tested while the station is DRAINING. -/
def State.drainTest (s : State) : State :=
  if s.sc.station == .draining && s.drained then s.completeDrain .complete else s

end Sys2Proof.Machine
end

