-- ==== Sys2Proof/Machine/Planner.lean ====
section
/-! DEFINITION. The frame plan of the Slot Planner (sections 2.4 to 2.6) and the acceptance of burst reports against the
plan in force (R34). -/
namespace Sys2Proof.Machine

/-! ### Page rotation and the beacon (R30, R32, R100) -/

/-- R100: the record that follows a handset's record in the page list, or the first when it was the last. -/
def followingPage (pages : List PageRecord) (h : Handset) : Option Handset :=
  match pages.findIdx? (fun p => p.handset == h) with
  | some k =>
    match pages[k + 1]? with
    | some p => some p.handset
    | none => pages.head?.map (·.handset)
  | none => none

/-- R100: the page the rotation cursor stands on. -/
def State.nextPage? (s : State) : Option PageRecord := s.cc.rotation.bind s.page?

/-- R100: the cursor moves to the record that follows. -/
def State.rotatePages (s : State) : State :=
  { s with cc := { s.cc with rotation := s.cc.rotation.bind (followingPage s.cc.pages) } }

/-- R30: the flag of the beacon header. -/
def State.beaconFlag (s : State) : BeaconFlag :=
  if s.sc.station == .draining then .leaving
  else if s.freeIndex.isSome then .vacant
  else .full

/-- R30: the beacon header. -/
def State.beaconHeader (s : State) : Downlink := .header s.stationNumber s.tb.mark s.tb.known s.beaconFlag

/-- R32: the message the arbiter chooses for a beacon frame. -/
def State.beaconMessage? (s : State) : Option Downlink :=
  match s.sp.beaconQ with
  | m :: _ => some m
  | [] => s.nextPage?.map fun p => .page p.handset p.tag

/-- R32: the state after the arbiter's choice: the queue loses its oldest message, or the page rotation moves on. -/
def State.afterArbiter (s : State) : State :=
  match s.sp.beaconQ with
  | _ :: rest => { s with sp := { s.sp with beaconQ := rest } }
  | [] => s.rotatePages

/-! ### Listens (R28, R29) -/

/-- R28: the oldest targeted listen request whose cell lies in a slot. -/
def State.targetedFor (s : State) (slot : Nat) : Option ListenRequest :=
  s.mu.listens.find? fun r => r.cell.slot == slot

/-- R29: the carrier of the background scan in a slot. -/
def scanCarrier (c : ConfigRecord) (k slot : Nat) : Nat :=
  match c.scanOrder with
  | .aligned => k
  | .staggered =>
    (c.scanFirstCarrier
      + ((k : Int) - c.scanFirstCarrier + slot - c.scanFirstSlot) % ((c.scanLastCarrier : Int) - c.scanFirstCarrier + 1)).toNat

/-- R29: whether a FREE slot listens in the background scan. -/
def State.scans (s : State) (slot : Nat) : Bool :=
  s.joined && s.sc.config.scanFirstSlot ≤ slot && slot ≤ s.sc.config.scanLastSlot && 1 ≤ slot && slot ≤ 15

/-- R29: the scan cursor after one strobe. -/
def nextCursor (c : ConfigRecord) (k : Nat) : Nat := if k < c.scanLastCarrier then k + 1 else c.scanFirstCarrier

/-- R28, R29: what a FREE slot is given. Slot 0 takes no listen. -/
def State.freeRole (s : State) (slot : Nat) : PlanRole :=
  if slot = 0 then .idle
  else
    match s.targetedFor slot with
    | some r => .listen r.cell.carrier (some r)
    | none => if s.scans slot then .listen (scanCarrier s.sc.config s.sp.cursor slot) none else .idle

/-- R27: what the frame plan gives a slot. -/
def State.roleOf (s : State) (slot : Nat) : PlanRole :=
  match s.slotEntry slot with
  | .beacon => .beacon s.sc.config.beaconCarrier
  | .bearer c h => .bearer c h
  | .held c h => .held c h
  | .reserved _ _ => .idle
  | .free => s.freeRole slot

/-- R33: the MOVE that a slot's downlink carries. -/
def State.moveFor (s : State) (slot : Nat) : Option Move :=
  s.sp.moves.find? fun m => m.slot == slot && (s.slotEntry slot).isBearerFor m.handset

/-- The message of a standing MOVE. -/
def Move.message (m : Move) : SentMessage :=
  { slot := m.slot, message := .move m.handset m.target m.newCell m.switchMark }

/-- R30, R32: the messages of the beacon slot: the header, then the arbiter's message if there is one. -/
def State.beaconMessages (s : State) : List SentMessage :=
  { slot := 0, message := s.beaconHeader } :: s.beaconMessage?.toList.map fun m => { slot := 0, message := m }

/-- Whether slot 0 is BEACON. -/
def State.hasBeacon (s : State) : Bool := s.slotEntry 0 == .beacon

/-- R27, R189: the messages sent with a frame plan, in ascending slot order, slot 0 first. -/
def State.planMessages (s : State) : List SentMessage :=
  (if s.hasBeacon then s.beaconMessages else [])
    ++ (List.range 16).flatMap fun slot => (s.moveFor slot).toList.map Move.message

/-- R27: the frame plan of a strobe. -/
def State.framePlan (s : State) : Vector PlanSlot 16 :=
  Vector.ofFn fun i : Fin 16 => { role := s.roleOf i.val, reported := false }

/-- R27, R34: the frame plan is built and sent and becomes the plan in force, with every reported mark clear; the
arbiter's choice is made; the scan cursor advances. -/
def State.buildPlan (s : State) : State :=
  let t := if s.hasBeacon then s.afterArbiter else s
  { t with
    sp := { t.sp with
      inForce := s.framePlan
      sent := s.planMessages
      cursor := nextCursor s.sc.config s.sp.cursor } }

/-- R25, R27: the Slot Planner takes a strobe report. -/
def State.plannerStrobe (s : State) : State := s.applyDueChanges.buildPlan

/-! ### Burst reports against the plan in force (R34, R35) -/

/-- What the plan in force gives a slot. -/
def State.planned (s : State) (slot : Nat) : PlanSlot :=
  s.sp.inForce[slot]?.getD { role := .idle, reported := false }

/-- R34: whether a burst report is accepted. -/
def State.accepts (s : State) (b : Burst) : Bool :=
  (s.planned b.slot).role.carrier? == some b.carrier && !(s.planned b.slot).reported

/-- R34: an accepted report's slot is marked reported. -/
def State.markReported (s : State) (slot : Nat) : State :=
  { s with
    sp := { s.sp with inForce := s.sp.inForce.setIfInBounds slot { s.planned slot with reported := true } } }

/-- R35: whether the slot plan as it stands holds BEARER or HELD in a slot for a handset. -/
def State.stillCarries (s : State) (slot : Nat) (h : Handset) : Bool :=
  match s.slotEntry slot with
  | .bearer _ h' => h' == h
  | .held _ h' => h' == h
  | .free | .beacon | .reserved _ _ => false

end Sys2Proof.Machine
end

