-- ==== Sys2Proof/Machine/Listening.lean ====
section
/-! DEFINITION. The Measurement Unit's three collections: the interference map, the overheard list and the targeted
listen list (chapter 4), and the cells a bearer may take (R91, R92). -/
namespace Sys2Proof.Machine

/-! ### The interference map (R53, R54) -/

/-- The place of a cell in the map. -/
def mapPlace (c : Cell) : Nat := 8 * (c.slot - 1) + c.carrier

/-- R53: the value of a cell as it stands. -/
def State.interference (s : State) (c : Cell) : Nat := s.mu.map[mapPlace c]?.getD Config.worstCell

/-- R54: a listen report feeds its cell with shift 2. -/
def State.feedMap (s : State) (c : Cell) (l : Nat) : State :=
  { s with
    mu := { s.mu with map := s.mu.map.setIfInBounds (mapPlace c) (filterStep (s.interference c) l Config.mapShift) } }

/-! ### The overheard list (R56 to R62) -/

/-- R62: a handset's overheard entry. -/
def State.overheard? (s : State) (h : Handset) : Option Overheard := s.mu.overheard.find? fun o => o.handset == h

/-- R62: whether a handset is fresh. -/
def State.fresh (s : State) (h : Handset) : Bool :=
  match s.overheard? h with
  | some o => o.age ≤ Config.freshAge
  | none => false

/-- R58, R59: the overheard entry after a hearing. -/
def State.heardEntry (s : State) (h : Handset) (l : Nat) (c : Cell) : Overheard :=
  match s.overheard? h with
  | some o => { handset := h, level := filterStep o.level l s.sc.config.filterShift, age := 0, cell := c }
  | none => { handset := h, level := filterStart l, age := 0, cell := c }

/-- R58, R59: the heard entry goes to the front; the back entry of a full list makes room for a new one. -/
def State.recordHearing (s : State) (h : Handset) (l : Nat) (c : Cell) : State :=
  { s with
    mu := { s.mu with
      overheard := (s.heardEntry h l c :: s.mu.overheard.filter fun o => o.handset != h).take Config.overheardPlaces } }

/-- R61: a handset's overheard entry is removed. -/
def State.removeOverheard (s : State) (h : Handset) : State :=
  { s with mu := { s.mu with overheard := s.mu.overheard.filter fun o => o.handset != h } }

/-- R60: one more strobe of age; an entry whose age reaches the overheard life is removed. -/
def ageOverheard (life : Nat) (l : List Overheard) : List Overheard :=
  (l.map fun o => { o with age := o.age + 1 }).filter fun o => o.age < life

/-- R60: the overheard list takes a strobe report. -/
def State.ageList (s : State) : State :=
  { s with mu := { s.mu with overheard := ageOverheard s.sc.config.overheardLife s.mu.overheard } }

/-! ### The targeted listen list (R63 to R68) -/

/-- The refusals of a targeted listen request (R64). -/
inductive ListenRefusal where
  | noSync | late | slotZero | held | listFull
deriving DecidableEq, Repr

/-- Whether two requests have the same seeker and handset (R63, R64). -/
def ListenRequest.sameKey (a b : ListenRequest) : Bool := a.seeker == b.seeker && a.handset == b.handset

/-- R64: the first failing check of a request. -/
def State.listenRefusal? (s : State) (r : ListenRequest) : Option ListenRefusal :=
  if !s.tb.known then some .noSync
  else if !s.tb.within r.replyBy 1 128 then some .late
  else if !(1 ≤ r.cell.slot && r.cell.slot ≤ 15) then some .slotZero
  else if s.isHeld r.handset then some .held
  else if !(s.mu.listens.any r.sameKey || s.mu.listens.length < Config.listenPlaces) then some .listFull
  else none

/-- R64: an admitted request replaces one of its seeker and handset in its place, or goes to the back. -/
def placeListen (r : ListenRequest) (l : List ListenRequest) : List ListenRequest :=
  if l.any r.sameKey then l.map fun x => if r.sameKey x then r else x else l ++ [r]

/-- R64: a request is registered, or refused and the list left as it was. -/
def State.registerListen (s : State) (r : ListenRequest) : State :=
  match s.listenRefusal? r with
  | some _ => s
  | none => { s with mu := { s.mu with listens := placeListen r s.mu.listens } }

/-- R66, R68: every request that names a handset is removed. -/
def State.endListensFor (s : State) (h : Handset) : State :=
  { s with mu := { s.mu with listens := s.mu.listens.filter fun r => r.handset != h } }

/-- R67: every request whose reply-by mark is due is removed; nothing is due while the mark is unknown. -/
def State.endDueListens (s : State) : State :=
  { s with mu := { s.mu with listens := s.mu.listens.filter fun r => !s.tb.due r.replyBy } }

/-- The Measurement Unit takes a strobe report (R60, R67). -/
def State.measurementStrobe (s : State) : State := s.ageList.endDueListens

/-- R61, R68: a handset becomes held here: its overheard entry and the listens that name it go. -/
def State.becomesHeld (s : State) (h : Handset) : State := (s.removeOverheard h).endListensFor h

/-! ### Bearer cells (R91 to R93) -/

/-- R91: whether a cell is allocatable. -/
def State.allocatable (s : State) (c : Cell) : Bool :=
  s.sc.config.scanFirstSlot ≤ c.slot && c.slot ≤ s.sc.config.scanLastSlot
    && s.sc.config.scanFirstCarrier ≤ c.carrier && c.carrier ≤ s.sc.config.scanLastCarrier
    && s.slotEntry c.slot == .free && !s.slotPending c.slot
    && s.interference c ≤ s.sc.config.cleanLimit

/-- The numbers from lo to hi. -/
def numbersFrom (lo hi : Nat) : List Nat := (List.range (hi + 1 - lo)).map (lo + ·)

/-- R92: the window order, slot-major over the scan window. -/
def windowOrder (c : ConfigRecord) : List Cell :=
  (numbersFrom c.scanFirstSlot c.scanLastSlot).flatMap fun slot =>
    (numbersFrom c.scanFirstCarrier c.scanLastCarrier).map fun carrier => { slot := slot, carrier := carrier }

/-- R92: whether a cell stands after another in the window order. -/
def Cell.after (c d : Cell) : Bool := d.slot < c.slot || (d.slot == c.slot && d.carrier < c.carrier)

/-- R92: the window order from the cell after the cursor round to the cursor itself. -/
def State.searchOrder (s : State) : List Cell :=
  let w := windowOrder s.sc.config
  w.filter (fun c => c.after s.cc.allocCursor) ++ w.filter fun c => !c.after s.cc.allocCursor

/-- R92: the first cell with the lowest value in a list. -/
def quietest (value : Cell → Nat) : List Cell → Option Cell
  | [] => none
  | c :: cs =>
    match quietest value cs with
    | some d => if value d < value c then some d else some c
    | none => some c

/-- R92: the cell a selection chooses, or NO_BEARER. -/
def State.selectCell (s : State) : Option Cell := quietest s.interference (s.searchOrder.filter s.allocatable)

/-- R91: whether the station has an allocatable cell; asking changes nothing. -/
def State.hasAllocatable (s : State) : Bool := (windowOrder s.sc.config).any s.allocatable

/-- R92: the allocation cursor moves to a chosen cell. -/
def State.moveCursor (s : State) (c : Cell) : State := { s with cc := { s.cc with allocCursor := c } }

end Sys2Proof.Machine
end

