-- ==== Sys2Proof/Machine/Handover.lean ====
section
/-! DEFINITION. The Handover Engine: the trigger (section 3.4), the serving side (chapter 8) and the receiving side
(chapter 9). -/
namespace Sys2Proof.Machine

/-! ### How an attempt fails (R142) -/

/-- R142: HANDOVER FAILED is posted and counted, and the entry's holdoff is set. -/
def State.failEntry (s : State) (i : Nat) (reason : Reason) (other : Nat) : State :=
  match s.entry? i with
  | some e =>
    ((s.post .handoverFailed e.handset other e.tag reason).count .handoverFailures).modifyEntry i fun x =>
      { x with holdoff := s.sc.config.holdoff }
  | none => s

/-- R142: an attempt fails: the failure of its entry, and the record is freed. -/
def State.failAttempt (s : State) (r : Nat) (reason : Reason) (other : Nat) : State :=
  match s.outRecord? r with
  | some o => (s.failEntry o.entry reason other).setOut r none
  | none => s

/-! ### The trigger (R45, R47, R48) and the SEEK (R128) -/

/-- R45: an IN_CALL entry is armed when M is at least T + H. -/
def rearmed (c : ConfigRecord) (e : Entry) : Entry :=
  if c.triggerThreshold + c.hysteresis ≤ e.merit c then { e with armed := true } else e

/-- R47: the kind of fire whose conditions hold, for an IN_CALL entry with no outbound record. -/
def State.fireKind? (s : State) (e : Entry) : Option FireKind :=
  if !s.tb.known || e.holdoff != 0 then none
  else
    match s.sc.station with
    | .active =>
      if s.sc.config.collapseCount ≤ e.missRun then some .collapse
      else if e.armed && e.merit s.sc.config < s.sc.config.triggerThreshold then some .threshold
      else none
    | .draining => some .forced
    | .unconfigured | .configured | .listening => none

/-- R47: the margin a record carries. -/
def marginOf (c : ConfigRecord) (k : FireKind) : Nat :=
  match k with
  | .threshold => c.handoverMargin
  | .collapse | .forced => 0

/-- R48: a free outbound record. -/
def State.freeOut (s : State) : Option Nat := s.he.outbound.toList.findIdx? Option.isNone

/-- R128: the SEEK of a fire. -/
def State.seekNotice (s : State) (e : Entry) : Notice where
  sender := s.stationNumber
  dest := 0
  handset := e.handset
  stamp := e.stamp
  mark := s.tb.ahead s.sc.config.offerWindow
  body := .seek s.he.seekNumber (e.cell?.getD { slot := 0, carrier := 0 }) (e.merit s.sc.config)

/-- R47: a threshold fire sets the armed flag to not armed. -/
def State.disarmFor (s : State) (i : Nat) (k : FireKind) : State :=
  match k with
  | .threshold => s.modifyEntry i fun x => { x with armed := false }
  | .collapse | .forced => s

/-- R128: a fire takes a record and offers its SEEK; a refused SEEK fails the attempt with QUEUE. -/
def State.fire (s : State) (i : Nat) (e : Entry) (k : FireKind) (r : Nat) : State :=
  let t := s.disarmFor i k
  if t.admits (t.seekNotice e) then
    let u := (t.offer (t.seekNotice e)).setOut r
      (some { entry := i, seek := s.he.seekNumber, fire := k, margin := marginOf s.sc.config k
              phase := .seeking (s.tb.ahead s.sc.config.offerWindow) [] })
    { u with he := { u.he with seekNumber := u.he.seekNumber + 1 } }
  else t.failEntry i .queue 0

/-- R47, R48: the trigger test of an IN_CALL entry, after the re-arm test. -/
def State.trigger (s : State) (i : Nat) : State :=
  match s.entry? i with
  | some e =>
    match s.outOf i, s.fireKind? e, s.freeOut with
    | none, some k, some r => s.fire i e k r
    | some _, _, _ => s
    | none, none, _ => s
    | none, some _, none => s
  | none => s

/-- R45, R47: the Handover Engine takes a bearer report of an IN_CALL entry. -/
def State.testTrigger (s : State) (i : Nat) : State :=
  (s.modifyEntry i (rearmed s.sc.config)).trigger i

/-! ### Choice, TRANSFER and fall-through (R131 to R134) -/

/-- R132: the TRANSFER to a candidate. -/
def State.transferNotice (s : State) (o : OutRecord) (e : Entry) (c : Candidate) : Notice where
  sender := s.stationNumber
  dest := c.station
  handset := e.handset
  stamp := e.stamp
  mark := s.tb.ahead s.sc.config.lead
  body := .transfer o.seek e.tag

/-- R132, R133: the candidates are asked in order; a refused TRANSFER counts as a DECLINE with QUEUE; with none left the
attempt fails with the reason and station of the candidate removed last. -/
def askFrom (r : Nat) (o : OutRecord) (e : Entry) : List Candidate → Reason → Nat → State → State
  | [], reason, other, s => s.failAttempt r reason other
  | c :: rest, _, _, s =>
    if s.admits (s.transferNotice o e c) then
      (s.offer (s.transferNotice o e c)).setOut r
        (some { o with phase := .asking (c :: rest) c.station (s.tb.ahead s.sc.config.lead) s.sc.config.takeTimeout })
    else askFrom r o e rest .queue c.station s

/-- R50, R131: the close of the offer window of a SEEKING record. -/
def State.closeWindow (s : State) (r : Nat) : State :=
  match s.outRecord? r with
  | some o =>
    match s.entry? o.entry, o.phase with
    | some e, .seeking _ l => askFrom r o e (qualifying (e.merit s.sc.config) o.margin l) .noCandidate 0 s
    | some _, .asking _ _ _ _ => s
    | some _, .switching _ _ _ => s
    | some _, .fallback _ _ _ _ => s
    | none, _ => s
  | none => s

/-- R133, R134: the current target of an ASKING record is removed and the next candidate is asked. -/
def State.nextCandidate (s : State) (r : Nat) (reason : Reason) : State :=
  match s.outRecord? r with
  | some o =>
    match s.entry? o.entry, o.phase with
    | some e, .asking l target _ _ => askFrom r o e (l.filter fun c => c.station != target) reason target s
    | some _, .seeking _ _ => s
    | some _, .switching _ _ _ => s
    | some _, .fallback _ _ _ _ => s
    | none, _ => s
  | none => s

/-- The event reason of a decline reason (R142). -/
def DeclineReason.reason : DeclineReason → Reason
  | .leaving => .leaving
  | .noSync => .noSync
  | .late => .late
  | .stale => .stale
  | .notHeard => .notHeard
  | .busy => .busy
  | .full => .full
  | .noBearer => .noBearer

/-- R127: the record found by a handset and a seek number, with its entry. -/
def State.outFor? (s : State) (h : Handset) (seek : BitVec 8) : Option (Nat × OutRecord) :=
  match s.lookup h with
  | some i =>
    match s.outOf i with
    | some r => (s.outRecord? r).bind fun o => if o.seek == seek then some (r, o) else none
    | none => none
  | none => none

/-- R129, R130: an OFFER handled by the Handover Engine. -/
def State.takeOffer (s : State) (n : Notice) (seek : BitVec 8) (merit freeSlots : Nat) : State :=
  match s.outFor? n.handset seek with
  | some (r, o) =>
    match o.phase with
    | .seeking m l =>
      s.setOut r (some { o with
        phase := .seeking m (enterCandidate { station := n.sender, merit := capMerit merit, freeSlots := freeSlots } l) })
    | .asking _ _ _ _ => s
    | .switching _ _ _ => s
    | .fallback _ _ _ _ => s
  | none => s

/-- R133: a DECLINE handled by the Handover Engine. -/
def State.takeDecline (s : State) (n : Notice) (seek : BitVec 8) (reason : DeclineReason) : State :=
  match s.outFor? n.handset seek with
  | some (r, o) =>
    match o.phase with
    | .asking _ target _ _ => if target = n.sender then s.nextCandidate r reason.reason else s
    | .seeking _ _ => s
    | .switching _ _ _ => s
    | .fallback _ _ _ _ => s
  | none => s

/-! ### The TAKE (R135, R136) -/

/-- R135: the plan change of the serving side. -/
def heldChange (c : Cell) (h : Handset) (m : Mark) : PlanChange :=
  { slot := c.slot, entry := .held c.carrier h, mark := m, requester := .servingSide }

/-- R135: a TAKE that proceeds, in the rule's order. -/
def State.proceed (s : State) (r : Nat) (o : OutRecord) (e : Entry) (c : Cell) (t : Tag) (k : Link) (target : Nat)
    (m : Mark) (newCell : Cell) : State :=
  ((((s.admitChange (heldChange c e.handset m)).setEntry o.entry (some { e with phase := .leaving c t k })).setOut r
    (some { o with phase := .switching target m newCell })).setMove
      { slot := c.slot, handset := e.handset, target := target, newCell := newCell, switchMark := m })

/-- R52, R135, R136: a TAKE that an ASKING record takes proceeds, or is late. -/
def State.actOnTake (s : State) (r : Nat) (o : OutRecord) (target : Nat) (m : Mark) (newCell : Cell) : State :=
  match s.entry? o.entry with
  | some e =>
    match e.phase with
    | .inCall c t k =>
      if s.tb.within m 1 128 && (s.changeRefusal? (heldChange c e.handset m)).isNone then
        s.proceed r o e c t k target m newCell
      else s.failAttempt r .late target
    | .idle _ => s
    | .setup _ _ _ => s
    | .leaving _ _ _ => s
    | .arriving _ _ => s
  | none => s

/-- R135, R191: a TAKE handled by the Handover Engine; a TAKE that names slot 0 is ignored. -/
def State.takeTake (s : State) (n : Notice) (seek : BitVec 8) (newCell : Cell) : State :=
  match s.outFor? n.handset seek with
  | some (r, o) =>
    match o.phase with
    | .asking _ target m _ =>
      if target = n.sender ∧ n.mark = m ∧ newCell.slot ≠ 0 then s.actOnTake r o target m newCell else s
    | .seeking _ _ => s
    | .switching _ _ _ => s
    | .fallback _ _ _ _ => s
  | none => s

/-! ### Switching, fallback and success (R138 to R141) -/

/-- R33, R138: the switch mark of a SWITCHING record is due: the record leaves SWITCHING, and its MOVE is withdrawn. -/
def State.startFallback (s : State) (r : Nat) : State :=
  match s.outRecord? r with
  | some o =>
    match o.phase with
    | .switching t m c =>
      (s.withdrawMoveOf o.entry).setOut r (some { o with phase := .fallback t m c s.sc.config.fallbackWindow })
    | .seeking _ _ => s
    | .asking _ _ _ _ => s
    | .fallback _ _ _ _ => s
  | none => s

/-- R139: a return: the slot is restored, the entry is IN_CALL, the attempt fails with RETURNED. -/
def State.returnToOld (s : State) (r : Nat) (o : OutRecord) (e : Entry) (target : Nat) : State :=
  match e.phase with
  | .leaving c t k =>
    ((s.restoreSlot c.slot e.handset).setEntry o.entry (some { e with phase := .inCall c t k })).failAttempt r .returned
      target
  | .idle _ => s
  | .setup _ _ _ => s
  | .inCall _ _ _ => s
  | .arriving _ _ => s

/-- R140: a CLAIM of success ends a record. -/
def State.succeed (s : State) (r i : Nat) (e : Entry) (target : Nat) : State :=
  ((((((s.freeBearer e).post .handedOut e.handset target e.tag .none).count .handoversOut).freeEntry i).setOut r none)).drainTest

/-- The loss of a call whose entry is freed with its outbound record (R141, R144). -/
def State.loseHandover (s : State) (r i : Nat) (e : Entry) (target : Nat) (reason : Reason) : State :=
  ((((s.freeBearer e).callLost e target reason).freeEntry i).setOut r none).drainTest

/-- R141: the counter of a FALLBACK record expires. -/
def State.expireFallback (s : State) (r : Nat) : State :=
  match s.outRecord? r with
  | some o =>
    match s.entry? o.entry, o.phase with
    | some e, .fallback target _ _ _ => s.loseHandover r o.entry e target .noConfirm
    | some _, .seeking _ _ => s
    | some _, .asking _ _ _ _ => s
    | some _, .switching _ _ _ => s
    | none, _ => s
  | none => s

/-- R144: the call of a SWITCHING record stays on its old bearer: the MOVE is withdrawn, the entry is IN_CALL. -/
def State.stayOnOld (s : State) (i : Nat) (e : Entry) : State :=
  match e.phase with
  | .leaving c t k => (s.withdrawMove c.slot).setEntry i (some { e with phase := .inCall c t k })
  | .idle _ => s
  | .setup _ _ _ => s
  | .inCall _ _ _ => s
  | .arriving _ _ => s

/-- R144: an outbound record is released on a sync loss report, by its state. -/
def State.releaseOut (s : State) (r : Nat) : State :=
  match s.outRecord? r with
  | some o =>
    match s.entry? o.entry, o.phase with
    | some _, .seeking _ _ => s.failAttempt r .noSync 0
    | some _, .asking _ target _ _ => s.failAttempt r .noSync target
    | some e, .switching target _ _ => (s.stayOnOld o.entry e).failAttempt r .noSync target
    | some e, .fallback target _ _ _ => s.loseHandover r o.entry e target .noSync
    | none, _ => s.setOut r none
  | none => s

/-! ### Offers (R148 to R150) -/

/-- R148: the conditions for answering a SEEK, as they stand. -/
def State.seekOpen (s : State) (h : Handset) (replyBy : Mark) : Bool :=
  s.isActive && s.tb.known && !s.isHeld h && s.tb.within replyBy 1 128 && s.hasAllocatable

/-- R44: the offer merit of an overheard entry with the committed slot count as it stands. -/
def State.offerMeritOf (s : State) (o : Overheard) : Nat := offerMerit o.level s.sc.config.loadWeight s.committed

/-- R149: the OFFER of an overheard handset. -/
def State.offerNotice (s : State) (o : Overheard) (seeker : Nat) (seek : BitVec 8) (stamp : Stamp) : Notice where
  sender := s.stationNumber
  dest := seeker
  handset := o.handset
  stamp := stamp
  mark := s.tb.mark
  body := .offer seek (s.offerMeritOf o) (15 - s.committed)

/-- R149: an offer is decided: OFFER when O is at least the offer floor. -/
def State.decideOffer (s : State) (h : Handset) (seeker : Nat) (seek : BitVec 8) (stamp : Stamp) : State :=
  match s.overheard? h with
  | some o => if s.sc.config.offerFloor ≤ s.offerMeritOf o then s.offer (s.offerNotice o seeker seek stamp) else s
  | none => s

/-- R148: the targeted listen request of a SEEK. -/
def Notice.listenRequest (n : Notice) (seek : BitVec 8) (c : Cell) : ListenRequest :=
  { handset := n.handset, cell := c, seeker := n.sender, seek := seek, replyBy := n.mark, stamp := n.stamp }

/-- R148: a SEEK handled by the Handover Engine: set aside, answered, or turned into a targeted listen. -/
def State.takeSeek (s : State) (n : Notice) (seek : BitVec 8) (c : Cell) : State :=
  if s.seekOpen n.handset n.mark then
    if s.fresh n.handset then s.decideOffer n.handset n.sender seek n.stamp
    else s.registerListen (n.listenRequest seek c)
  else s

/-- R150: a targeted listen request that a hearing has ended. -/
def State.answerListen (s : State) (r : ListenRequest) : State :=
  if s.seekOpen r.handset r.replyBy then s.decideOffer r.handset r.seeker r.seek r.stamp else s

/-- R57, R66: a hearing of a handset: the overheard entry, then the requests that name it, oldest first. -/
def State.hearing (s : State) (h : Handset) (l : Nat) (c : Cell) : State :=
  if s.isHeld h then s
  else
    (s.mu.listens.filter fun r => r.handset == h).foldl State.answerListen ((s.recordHearing h l c).endListensFor h)

/-! ### Taking a TRANSFER (R151 to R154) -/

/-- R155: a free inbound record. -/
def State.freeIn (s : State) : Option Nat := s.he.inbound.toList.findIdx? Option.isNone

/-- R151, R152: check 4: h is not held here, or its entry is older than the TRANSFER. -/
def State.transferNewer (s : State) (n : Notice) : Bool :=
  match s.find? n.handset with
  | some (_, e) => n.stamp.newer e.stamp
  | none => true

/-- R151: checks 1 to 7, in order. -/
def State.transferRefusal? (s : State) (n : Notice) : Option DeclineReason :=
  if !s.isActive then some .leaving
  else if !s.tb.known then some .noSync
  else if !s.tb.within n.mark 2 128 then some .late
  else if !s.transferNewer n then some .stale
  else if !s.fresh n.handset then some .notHeard
  else if s.freeIn.isNone then some .busy
  else if s.freeIndex.isNone then some .full
  else none

/-- R151: a DECLINE. -/
def State.declineNotice (s : State) (n : Notice) (seek : BitVec 8) (reason : DeclineReason) : Notice where
  sender := s.stationNumber
  dest := n.sender
  handset := n.handset
  stamp := n.stamp
  mark := s.tb.mark
  body := .decline seek reason

/-- R153: a TAKE. -/
def State.takeNotice (s : State) (n : Notice) (seek : BitVec 8) (c : Cell) : Notice where
  sender := s.stationNumber
  dest := n.sender
  handset := n.handset
  stamp := n.stamp
  mark := n.mark
  body := .take seek c

/-- R154: the entry of a reservation. -/
def arrivingEntry (n : Notice) (tag : Tag) (c : Cell) (level : Nat) : Entry :=
  { handset := n.handset, stamp := n.stamp.nextHop, phase := .arriving c tag, level := level, armed := false, holdoff := 0
    claimOwed := false }

/-- R19: a commit request; refused, it changes nothing. -/
def State.commit (s : State) (slot : Nat) (e : SlotEntry) : State :=
  match s.commitRefusal? slot with
  | none => s.writeSlot slot e
  | some _ => s

/-- R23, R24: a plan change request; refused, it changes nothing. -/
def State.requestChange (s : State) (c : PlanChange) : State :=
  match s.changeRefusal? c with
  | none => s.admitChange c
  | some _ => s

/-- R154: the plan change of the receiving side. -/
def bearerChange (c : Cell) (h : Handset) (m : Mark) : PlanChange :=
  { slot := c.slot, entry := .bearer c.carrier h, mark := m, requester := .receivingSide }

/-- R154: the reservation, in the rule's order. -/
def State.reserve (s : State) (n : Notice) (seek : BitVec 8) (tag : Tag) (c : Cell) (level i r : Nat) : State :=
  (((((s.becomesHeld n.handset).setEntry i (some (arrivingEntry n tag c level))).commit c.slot
    (.reserved c.carrier n.handset)).requestChange (bearerChange c n.handset n.mark)).setIn r
      (some { entry := i, handset := n.handset, source := n.sender, seek := seek, cell := c, switchMark := n.mark
              phase := .reserved }))

/-- R153: a cell is selected for a TRANSFER that passes checks 1 to 7 and a TAKE is offered; a refused TAKE abandons
the acceptance, with the allocation cursor moved. -/
def State.acceptTransfer (s : State) (n : Notice) (seek : BitVec 8) (tag : Tag) (level i r : Nat) : State :=
  match s.selectCell with
  | none => s.offer (s.declineNotice n seek .noBearer)
  | some c =>
    if (s.moveCursor c).admits (s.takeNotice n seek c) then
      ((s.moveCursor c).offer (s.takeNotice n seek c)).reserve n seek tag c level i r
    else s.moveCursor c

/-- R151: a TRANSFER addressed here. -/
def State.takeTransfer (s : State) (n : Notice) (seek : BitVec 8) (tag : Tag) : State :=
  match s.transferRefusal? n with
  | some reason => s.offer (s.declineNotice n seek reason)
  | none =>
    match s.overheard? n.handset, s.freeIndex, s.freeIn with
    | some o, some i, some r => s.acceptTransfer n seek tag o.level i r
    | none, _, _ => s
    | some _, none, _ => s
    | some _, some _, none => s

/-! ### The inbound record (R156 to R158, R162) -/

/-- R156: the switch mark of a RESERVED record is due. -/
def State.startAwaiting (s : State) (r : Nat) : State :=
  match s.inRecord? r with
  | some o =>
    match o.phase with
    | .reserved => s.setIn r (some { o with phase := .awaiting s.sc.config.arrivalWindow })
    | .awaiting _ => s
  | none => s

/-- R157: the arrival, in the rule's order. -/
def State.arrive (s : State) (r i : Nat) (o : InRecord) (e : Entry) (c : Cell) (t : Tag) : State :=
  ((((s.setEntry i (some { e with phase := .inCall c t Link.fresh, armed := true, holdoff := 0 })).offerClaim i).post
    .handedIn e.handset o.source t .none).count .handoversIn).setIn r none

/-- R158, R162: the handset has not arrived: slot and entry are freed, ARRIVAL MISSED is posted and counted, the record
is freed. -/
def State.missArrival (s : State) (r : Nat) (reason : Reason) : State :=
  match s.inRecord? r with
  | some o =>
    match s.entry? o.entry with
    | some e =>
      (((((s.freeBearer e).freeEntry o.entry).post .arrivalMissed o.handset o.source e.tag reason).count
        .arrivalsMissed).setIn r none).drainTest
    | none => s.setIn r none
  | none => s

/-- R158: the counter of an AWAITING record expires. -/
def State.expireArrival (s : State) (r : Nat) : State :=
  match s.inRecord? r with
  | some o =>
    match o.phase with
    | .awaiting _ => s.missArrival r .timeout
    | .reserved => s
  | none => s

end Sys2Proof.Machine
end

