-- ==== Sys2Proof/Machine/Calls.lean ====
section
/-! DEFINITION. The Call Controller: selection with its commit, setup, paging, clearing and call loss (chapter 6). -/
namespace Sys2Proof.Machine

/-! ### Setup (R92 to R98) -/

/-- R93: a selection followed at once by its commit; a refused commit selects again, within the window's slot count. -/
def selectCommit (h : Handset) : Nat → State → Option Cell × State
  | 0, s => (none, s)
  | tries + 1, s =>
    match s.selectCell with
    | none => (none, s)
    | some c =>
      match (s.moveCursor c).commitRefusal? c.slot with
      | none => (some c, (s.moveCursor c).writeSlot c.slot (.bearer c.carrier h))
      | some _ => selectCommit h tries (s.moveCursor c)

/-- R94: the tag the part assigns: station number times 1024 plus the tag sequence. -/
def State.ownTag (s : State) : Tag := BitVec.ofNat 16 (1024 * s.stationNumber + s.cc.tagSeq.toNat)

/-- R94: the tag sequence advances by one, from 1023 back to 0. -/
def State.advanceTag (s : State) : State := { s with cc := { s.cc with tagSeq := s.cc.tagSeq + 1 } }

/-- R96: a setup record is taken; its message-discarded flag says whether the beacon queue will discard the message. -/
def State.addSetup (s : State) (i : Nat) : State :=
  { s with
    cc := { s.cc with
      setups := s.cc.setups ++
        [{ entry := i, counter := s.sc.config.arrivalWindow, discarded := !s.beaconAdmits }] } }

/-- R96: setup begins on a committed cell: the entry, the setup record, the BEARER message. -/
def State.beginSetup (s : State) (i : Nat) (h : Handset) (c : Cell) (tag : Tag) : State :=
  ((s.modifyEntry i fun e => { e with phase := .setup c tag Link.fresh }).addSetup i).offerBeacon (.bearer h c tag)

/-- R97: a setup ends with success. -/
def State.callUp (s : State) (i : Nat) (e : Entry) (c : Cell) (t : Tag) (k : Link) : State :=
  (((s.setEntry i (some { e with phase := .inCall c t k, armed := true, holdoff := 0 })).dropSetup i).post .callUp e.handset 0
    t .none).count .callsUp

/-- R98: a setup fails at its counter. -/
def State.setupFails (s : State) (i : Nat) (e : Entry) (discarded : Bool) : State :=
  ((((s.freeBearer e).toIdle i).dropSetup i).post .callFailed e.handset 0 e.tag
    (if discarded then .queue else .timeout)).drainTest

/-! ### Clearing and loss (R103, R105) -/

/-- R103: a call is cleared. -/
def State.clearTheCall (s : State) (i : Nat) (e : Entry) (reason : Reason) : State :=
  (((s.releaseCall i e).toIdle i).post .callDown e.handset 0 e.tag reason).drainTest

/-- R105: a call is lost at the drop count. -/
def State.dropCall (s : State) (i : Nat) (e : Entry) : State :=
  (((s.releaseCall i e).toIdle i).callLost e 0 .signal).drainTest

/-- R97, R103, R105: the Call Controller takes a bearer report of the entry at an index. -/
def State.callTakesReport (s : State) (i : Nat) (r : LinkReport) : State :=
  match s.entry? i with
  | some e =>
    match e.phase with
    | .setup c t k => if r.good then if r.clear then s.clearTheCall i e .handset else s.callUp i e c t k else s
    | .inCall _ _ k =>
      if r.good && r.clear then s.clearTheCall i e .handset
      else if s.sc.config.dropCount ≤ k.missRun then s.dropCall i e
      else s
    | .leaving _ _ _ => if r.good && r.clear then s.clearTheCall i e .handset else s
    | .arriving _ _ => s
    | .idle _ => s
  | none => s

/-! ### Paging (R99 to R102) -/

/-- R102: a page record ends with PAGE FAILED. -/
def State.pageFails (s : State) (h : Handset) (reason : Reason) : State :=
  match s.page? h with
  | some p => (s.removePage h).post .pageFailed h 0 p.tag reason
  | none => s

/-- R99: a page record is refreshed in its place. -/
def State.refreshPage (s : State) (h : Handset) (tag : Tag) : State :=
  { s with
    cc := { s.cc with
      pages := s.cc.pages.map fun p =>
        if p.handset == h then { p with tag := tag, remaining := s.sc.config.pageTimeout } else p } }

/-- R99: a page record is added at the back; the rotation cursor is set to it if the list was empty. -/
def State.addPage (s : State) (h : Handset) (tag : Tag) : State :=
  { s with
    cc := { s.cc with
      pages := s.cc.pages ++ [{ handset := h, tag := tag, remaining := s.sc.config.pageTimeout }]
      rotation := if s.cc.pages.isEmpty then some h else s.cc.rotation } }

/-- R95: a CALL that has passed the first three checks. -/
def State.setUpCall (s : State) (i : Nat) (h : Handset) : State :=
  match selectCommit h 15 s with
  | (none, t) => t.denyCall h .noBearer
  | (some c, t) =>
    match t.page? h with
    | some p => (t.removePage h).beginSetup i h c p.tag
    | none => t.advanceTag.beginSetup i h c t.ownTag

/-- R95: a CALL from a handset. -/
def State.takeCall (s : State) (h : Handset) : State :=
  if !s.isActive then (s.denyCall h .leaving).pageFails h .leaving
  else
    match s.find? h with
    | none => s.denyCall h .notAttached
    | some (i, e) => if !e.isIdle then s.denyCall h .busy else s.setUpCall i h

/-- R101: a PAGE REPLY whose tag is that of its page record. -/
def State.setUpReply (s : State) (i : Nat) (h : Handset) (tag : Tag) : State :=
  match selectCommit h 15 s with
  | (none, t) => t.denyCall h .noBearer
  | (some c, t) => (t.removePage h).beginSetup i h c tag

/-- R101: a PAGE REPLY from a handset. -/
def State.takePageReply (s : State) (h : Handset) (tag : Tag) : State :=
  if !s.isActive then (s.denyCall h .leaving).pageFails h .leaving
  else
    match s.find? h with
    | none => s.denyCall h .notAttached
    | some (i, e) =>
      if !e.isIdle then s.denyCall h .busy
      else
        match s.page? h with
        | none => s.denyCall h .noPage
        | some p => if p.tag ≠ tag then s else s.setUpReply i h tag

end Sys2Proof.Machine
end

