-- ==== Sys2Proof/Machine/Registration.lean ====
section
/-! DEFINITION. The Registration Controller: attach, presence and idle expiry, supersession, location (chapter 5). -/
namespace Sys2Proof.Machine

/-! ### Attach (R73 to R77) -/

/-- R74: the entry of a new attachment. -/
def attachedEntry (h : Handset) (epoch : BitVec 8) (l : Nat) : Entry :=
  { handset := h, stamp := { epoch := epoch, hop := 0 }, phase := .idle 0, level := filterStart l, armed := false
    holdoff := 0, claimOwed := false }

/-- R74: an ATTACH from a handset with no entry takes the lowest FREE index, or is denied FULL. -/
def State.attachNew (s : State) (h : Handset) (epoch : BitVec 8) (l : Nat) : State :=
  match s.freeIndex with
  | some i =>
    (((((s.setEntry i (some (attachedEntry h epoch l))).becomesHeld h).grant h).offerClaim i).post .attached h 0 0 .new)
  | none => s.denyAttach h .full

/-- R76: the call a new tenure ends. -/
def State.endTenure (s : State) (i : Nat) (e : Entry) : State :=
  if e.engaged then (s.releaseCall i e).callLost e 0 .reattach else s

/-- R76: a new tenure in the same entry: the call and the page end, the entry is IDLE with stamp (e, 0) and F afresh;
armed flag, holdoff and claim-owed flag are kept. -/
def State.newTenure (s : State) (i : Nat) (e : Entry) (epoch : BitVec 8) (l : Nat) : State :=
  (((((s.endTenure i e).removePage e.handset).modifyEntry i fun x =>
    { x with stamp := { epoch := epoch, hop := 0 }, phase := .idle 0, level := filterStart l }).grant e.handset).offerClaim
      i).post .attached e.handset 0 0 .newTenure

/-- R73 to R77: an ATTACH naming this station. -/
def State.takeAttach (s : State) (h : Handset) (epoch : BitVec 8) (l : Nat) : State :=
  if !s.isActive then s.denyAttach h .leaving
  else
    match s.find? h with
    | none => s.attachNew h epoch l
    | some (i, e) =>
      if epoch = e.stamp.epoch then s.grant h
      else if serialNewer epoch e.stamp.epoch then s.newTenure i e epoch l
      else s.denyAttach h .stale

/-! ### Presence and idle expiry (R79, R80) -/

/-- R79: the silence of an entry set to 0, if it keeps one. -/
def Entry.spoken (e : Entry) : Entry :=
  match e.phase with
  | .idle _ => { e with phase := .idle 0 }
  | .setup _ _ _ => e
  | .inCall _ _ _ => e
  | .leaving _ _ _ => e
  | .arriving _ _ => e

/-- R40, R79: a PRESENCE, CALL or PAGE REPLY of a handset held here: silence 0, one filter step. -/
def State.hearHeld (s : State) (i l : Nat) : State :=
  s.modifyEntry i fun e => { e.spoken with level := filterStep e.level l s.sc.config.filterShift }

/-- R79: a beacon uplink report as the Registration Controller takes it before the Call Controller. -/
def State.hearUplink (s : State) (h : Handset) (l : Nat) : State :=
  match s.lookup h with
  | some i => s.hearHeld i l
  | none => s

/-- R79: a PRESENCE. -/
def State.takePresence (s : State) (h : Handset) (l : Nat) : State :=
  match s.lookup h with
  | some i => s.hearHeld i l
  | none => s.denyAttach h (if s.isActive then .notAttached else .leaving)

/-- R80: an IDLE entry expires. -/
def State.expireIdle (s : State) (i : Nat) (e : Entry) : State :=
  (s.freeEntry i).post .detached e.handset 0 0 .expired

/-! ### Supersession (R81 to R85) -/

/-- R82: a newer holder notice removes the entry with its call. -/
def State.supersedeEntry (s : State) (i : Nat) (e : Entry) (sender : Nat) : State :=
  if e.engaged then
    ((((s.releaseCall i e).freeEntry i).post .detached e.handset sender e.tag .supersededCall)).drainTest
  else (s.freeEntry i).post .detached e.handset sender 0 .superseded

/-- R85: a notice with an older stamp draws a correcting CLAIM from an IDLE, SETUP or IN_CALL entry. -/
def State.correct (s : State) (i : Nat) (e : Entry) : State :=
  match e.phase with
  | .idle _ => s.offerClaim i
  | .setup _ _ _ => s.offerClaim i
  | .inCall _ _ _ => s.offerClaim i
  | .leaving _ _ _ => s
  | .arriving _ _ => s

/-- R81: supersession by a holder notice from another station. -/
def State.supersede (s : State) (n : Notice) : State :=
  match s.find? n.handset with
  | none => s
  | some (i, e) =>
    match n.stamp.compare e.stamp with
    | .newer => s.supersedeEntry i e n.sender
    | .equal => s.post .stampConflict e.handset n.sender e.tag .equal
    | .opposed => s.post .stampConflict e.handset n.sender e.tag .opposed
    | .older => s.correct i e

/-- R83: the record a CLAIM of success ends, with the index of its entry: the entry is LEAVING, the sender is the current
target, the stamp is exactly one hop newer. -/
def State.claimOfSuccess? (s : State) (n : Notice) : Option (Nat × Nat × Entry) :=
  match s.find? n.handset with
  | none => none
  | some (i, e) =>
    match s.outOf i with
    | none => none
    | some r =>
      if e.isLeaving && ((s.outRecord? r).bind (·.phase.target?)) == some n.sender && n.stamp == e.stamp.nextHop then
        some (r, i, e)
      else none

/-- R81, R83: a CLAIM from another station. -/
def State.takeClaim (s : State) (n : Notice) : State :=
  match s.claimOfSuccess? n with
  | some (r, i, e) => s.succeed r i e n.sender
  | none => s.supersede n

/-! ### Location (R87 to R89) -/

/-- The call tag field of LOCATED: epoch in the upper byte, hop in the lower. -/
def Stamp.asTag (t : Stamp) : Tag := t.epoch ++ t.hop

/-- The reason of LOCATED. -/
def foundReason (inCall : Bool) : Reason := if inCall then .foundInCall else .foundIdle

/-- R87, R88: LOCATED with this station as the holder. -/
def State.locatedHere (s : State) (e : Entry) : State :=
  s.post .located e.handset s.stationNumber e.stamp.asTag (foundReason e.engaged)

/-- R87: a free find record. -/
def State.freeFind (s : State) : Option Nat := s.rc.finds.toList.findIdx? Option.isNone

/-- Whether a place of the find records runs for a handset. -/
def findsHandset (h : Handset) (o : Option FindRecord) : Bool :=
  match o with
  | some f => f.handset == h
  | none => false

/-- The find record running for a handset. -/
def State.findFor (s : State) (h : Handset) : Option Nat := s.rc.finds.toList.findIdx? (findsHandset h)

/-- A find record. -/
def State.findRecord? (s : State) (r : Nat) : Option FindRecord := (s.rc.finds[r]?).join

/-- A find record is written. -/
def State.setFind (s : State) (r : Nat) (f : Option FindRecord) : State :=
  { s with rc := { s.rc with finds := s.rc.finds.setIfInBounds r f } }

/-- R87: the FIND of a LOCATE. The spec states no stamp for it and no receiving rule reads one, so the two stamp fields
are free values (log 20). -/
def State.findNotice (s : State) (h : Handset) : Notice where
  sender := s.stationNumber
  dest := 0
  handset := h
  stamp := { epoch := Config.freeFindEpoch s.drawn, hop := Config.freeFindHop s.drawn }
  mark := s.tb.mark
  body := .find s.rc.findNumber

/-- R87: an admitted FIND takes a find record and advances the find number; the next FIND draws fresh free values. -/
def State.startFind (s : State) (h : Handset) (r : Nat) : State :=
  let t := (s.offer (s.findNotice h)).setFind r
    (some { handset := h, number := s.rc.findNumber, remaining := s.sc.config.findWindow, answer := none })
  { t with rc := { t.rc with findNumber := t.rc.findNumber + 1 }, drawn := t.drawn + 1 }

/-- R88: the answer a HERE leaves in a find record. -/
def keepAnswer (old : Option FindAnswer) (a : FindAnswer) : FindAnswer :=
  match old with
  | none => a
  | some b => if a.stamp.newer b.stamp then a else b

/-- R109: whether a notice of an addressed kind is addressed here. -/
def State.addressedHere (s : State) (n : Notice) : Bool := n.dest == 0 || n.dest == s.stationNumber

/-- R88: a HERE addressed here is taken as an answer when its number and handset match a running record. -/
def State.takeAnswer (s : State) (n : Notice) (number : BitVec 8) (inCall : Bool) : State :=
  match s.findFor n.handset with
  | some r =>
    match s.findRecord? r with
    | some f =>
      if f.number = number then
        s.setFind r (some { f with
          answer := some (keepAnswer f.answer { station := n.sender, stamp := n.stamp, inCall := inCall }) })
      else s
    | none => s
  | none => s

/-- R88: the event of a find record at its expiry. -/
def State.reportFind (s : State) (f : FindRecord) : State :=
  match s.find? f.handset with
  | some (_, e) => s.locatedHere e
  | none =>
    match f.answer with
    | some a => s.post .located f.handset a.station a.stamp.asTag (foundReason a.inCall)
    | none => s.post .notFound f.handset 0 0 .none

/-- R88: a find record expires. -/
def State.expireFind (s : State) (r : Nat) (f : FindRecord) : State := (s.setFind r none).reportFind f

/-- R89: the HERE that answers a FIND. -/
def State.hereNotice (s : State) (n : Notice) (number : BitVec 8) (e : Entry) : Notice where
  sender := s.stationNumber
  dest := n.sender
  handset := e.handset
  stamp := e.stamp
  mark := s.tb.mark
  body := .here number e.engaged

/-- R89: a FIND is answered for a handset held here in any state but ARRIVING. -/
def State.takeFind (s : State) (n : Notice) (number : BitVec 8) : State :=
  match s.find? n.handset with
  | some (_, e) => if e.isArriving then s else s.offer (s.hereNotice n number e)
  | none => s

end Sys2Proof.Machine
end

