-- ==== Sys2Proof/Machine/Bus.lean ====
section
/-! DEFINITION. The part on the bus: beginning a notice, contention, sending, yielding, and taking notices off the bus
(R110 to R114, R121, R122). -/
namespace Sys2Proof.Machine

/-! ### The idle watch and yielding (R111, R113) -/

/-- R113: whether the part is yielding. -/
def State.yielding (s : State) : Bool := s.sc.config.yieldBurst ≤ s.bus.yieldCount

/-- The transmitter drives the bus in CONTENDING and SENDING. -/
def Transmitter.driving : Transmitter → Bool
  | .waiting => false
  | .contending _ => true
  | .sending _ => true

/-- R113: the yield counter after so many idle bit times. -/
def yieldAfterIdle (c : ConfigRecord) (count idle : Nat) : Nat :=
  if c.yieldBurst ≤ count ∧ c.yieldTime ≤ idle then 0 else count

/-- R111, R113: further idle bit times pass on the bus; none pass while the part itself drives it (log 6). -/
def State.advanceIdle (s : State) (idle : Nat) : State :=
  if s.bus.tx.driving then s
  else
    { s with
      bus := { s.bus with
        idle := s.bus.idle + idle
        yieldCount := yieldAfterIdle s.sc.config s.bus.yieldCount (s.bus.idle + idle) } }

/-! ### Sending (R110 to R114) -/

/-- The oldest notice of a class in the queue. -/
def State.oldestOf (s : State) (k : NoticeClass) : Option Nat :=
  s.bus.queue.findIdx? fun q => q.notice.kindClass == k

/-- R114: the place of the notice to send. -/
def State.choice? (s : State) : Option Nat :=
  ((s.oldestOf .completion).or (s.oldestOf .protocol)).or (s.oldestOf .enquiry)

/-- R111: whether the part may begin a notice, but for the queue holding one. -/
def State.mayBegin (s : State) : Bool :=
  !s.bus.tx.driving && !s.yielding && s.serving && Config.contentionIdle ≤ s.bus.idle

/-- R110, R111: a notice is begun: its bits are formed, it is in transmission, the bus is busy. -/
def State.beginNotice (s : State) (place : Nat) (through : Bool) (n : Notice) : State :=
  { s with
    bus := { s.bus with
      queue := s.bus.queue.modify place fun q => { q with inTransmission := true }
      tx := if through then .sending n.encode else .contending n.encode
      idle := 0 } }

/-- R111: the part begins the notice it chooses, if it may. -/
def State.tryBegin (s : State) (through : Bool) : State :=
  if s.mayBegin then
    match s.choice? with
    | some k =>
      match s.bus.queue[k]? with
      | some q => s.beginNotice k through q.notice
      | none => s
    | none => s
  else s

/-- NOTICE_BEGIN (R111, R114). -/
def execNoticeBegin (idle : Nat) (through : Bool) (s : State) : Host.Outcome State Fault Refusal :=
  .next ((s.advanceIdle idle).tryBegin through)

/-- YIELD_TIME_EXPIRY (R113). -/
def execYieldTimeExpiry (idle : Nat) (s : State) : Host.Outcome State Fault Refusal := .next (s.advanceIdle idle)

/-- R111, R120: the notice in transmission waits again in its place, unless a sync loss has condemned it. -/
def afterLoss (queue : List QueuedNotice) : List QueuedNotice :=
  (queue.filter fun q => !(q.inTransmission && q.condemned)).map fun q => { q with inTransmission := false }

/-- R111: the part loses contention. -/
def State.loseContention (s : State) : State :=
  let t := { s with bus := { s.bus with queue := afterLoss s.bus.queue, tx := .waiting, idle := 0 } }.count .contentionLosses
  if s.bus.queue.any fun q => q.inTransmission && q.condemned then t.occupancyFell else t

/-- CONTENTION_LOST (R111, R120): a bit sent recessive is read back dominant; a dominant bit cannot be lost (log 8). -/
def execContentionLost (bit : Fin 10) (s : State) : Host.Outcome State Fault Refusal :=
  .next (match s.bus.tx with
    | .contending w => if w.getMsbD bit.val then s.loseContention else s
    | .waiting => s
    | .sending _ => s)

/-- R112: the notice in transmission is sent. -/
def State.finishNotice (s : State) : State :=
  ({ s with
      bus := { s.bus with
        queue := s.bus.queue.eraseP (·.inTransmission)
        tx := .waiting
        yieldCount := min s.sc.config.yieldBurst (s.bus.yieldCount + 1)
        idle := 0 } }.count .noticesSent).occupancyFell

/-- NOTICE_SENT (R112, R113, R116, R119). -/
def execNoticeSent (s : State) : Host.Outcome State Fault Refusal :=
  .next (if s.bus.tx.driving then s.finishNotice else s)

/-! ### Receiving (R121, R122, R191) -/

/-- A notice heard on the bus ends its idle. -/
def State.busBusy (s : State) : State := { s with bus := { s.bus with idle := 0 } }

/-- R113: another station's notice is heard. -/
def State.heardAnother (s : State) : State := { s with bus := { s.bus with yieldCount := 0 } }

/-- R122, R191: whether a notice is a reply between two other stations. -/
def State.passesOver (s : State) (n : Notice) : Bool := n.isReply && n.dest != 0 && n.dest != s.stationNumber

/-- R122: a notice heard from another station is taken, passed over or discarded. -/
def State.receive (s : State) (n : Notice) : State :=
  if s.passesOver n then s
  else if s.bus.rx.length < Config.receivePlaces then
    { s with bus := { s.bus with rx := s.bus.rx ++ [n] } }.count .noticesReceived
  else s.count .noticesDiscarded

/-- R121 steps 3 to 6, R191: a notice of so many bits heard while this station was not sending. -/
def State.hearWord (s : State) (length : Nat) (w : NoticeWord) : State :=
  if length < 112 then s.count .noticesDiscarded
  else if !checkPasses w then s.count .noticesDiscarded
  else if wordSender w = s.stationNumber then s.count .noticesDiscarded
  else
    match Notice.decode w with
    | some n => s.heardAnother.receive n
    | none => s.heardAnother.count .noticesDiscarded

/-- R121: steps 1 and 2, then the rest. -/
def State.hearNotice (s : State) (length : Nat) (w : NoticeWord) : State :=
  if !s.joined then s
  else if s.bus.tx.driving then s
  else s.hearWord length w

/-- NOTICE_HEARD (R121, R122, R113, R191). -/
def execNoticeHeard (length : Nat) (word : NoticeWord) (s : State) : Host.Outcome State Fault Refusal :=
  .next (s.busBusy.hearNotice length word)

end Sys2Proof.Machine
end

