-- ==== Sys2Proof/Machine/Strobe.lean ====
section
/-! DEFINITION. Strobes, the strobe-overdue watch, and everything that falls due at a strobe (chapter 1 and the rules each
row names). A strobe command does, in one step and in the order its operand gives, all the work that the rows for expiries
and due marks name; such a row sent alone does that one piece of work (log 1). -/
namespace Sys2Proof.Machine

/-! ### Drain and quiet period (R171, R173) -/

/-- R171: the station becomes ACTIVE: slot 0 is BEACON and JOINED is posted. -/
def State.becomeActive (s : State) : State :=
  let t := (s.writeSlot 0 .beacon).post .joined 0 0 0 .none
  { t with sc := { t.sc with station := .active, quiet := none } }

/-- The quiet-period counter is written. -/
def State.setQuiet (s : State) (q : Option Nat) : State := { s with sc := { s.sc with quiet := q } }

/-- The drain counter is written. -/
def State.setDrain (s : State) (d : Option Nat) : State := { s with sc := { s.sc with drain := d } }

/-- R171: the strobe report that brings the quiet-period counter to 0: ACTIVE if the mark is known, else the counter
stays at 0. -/
def State.quietReachesZero (s : State) : State :=
  if s.tb.known then s.becomeActive else s.setQuiet (some 0)

/-! ### One owner takes a strobe report

A counter at 1 is brought to 0 by the report and expires; above 1 it falls by one; at 0 it is left (R13). -/

/-- R46: a holdoff that reaches 0 arms an IN_CALL entry whose M is below T. -/
def holdoffReachesZero (c : ConfigRecord) (e : Entry) : Entry :=
  { e with holdoff := 0, armed := e.armed || (e.isInCall && e.merit c < c.triggerThreshold) }

/-- R13, R46: the holdoff of an entry at a strobe. -/
def countHoldoff (c : ConfigRecord) (e : Entry) : Entry :=
  if e.holdoff = 1 then holdoffReachesZero c e else { e with holdoff := e.holdoff - 1 }

/-- R13, R46: the holdoff of the entry at a table index takes a strobe report. -/
def State.holdoffStrobe (s : State) (i : Nat) : State := s.modifyEntry i (countHoldoff s.sc.config)

/-- R80: one more slow tick of silence. -/
def State.silenceTick (s : State) (i : Nat) : State :=
  match s.entry? i with
  | some e =>
    match e.phase with
    | .idle n =>
      if s.sc.config.idleExpiry ≤ n + 1 then s.expireIdle i e
      else s.setEntry i (some { e with phase := .idle (n + 1) })
    | .setup _ _ _ => s
    | .inCall _ _ _ => s
    | .leaving _ _ _ => s
    | .arriving _ _ => s
  | none => s

/-- A setup counter falls by one. -/
def State.countSetup (s : State) (i : Nat) : State :=
  { s with
    cc := { s.cc with
      setups := s.cc.setups.map fun r => if r.entry == i then { r with counter := r.counter - 1 } else r } }

/-- R98: the setup record of an entry expires; a record without an entry is freed. -/
def State.setupReachesZero (s : State) (i : Nat) (r : SetupRecord) : State :=
  match s.entry? i with
  | some e => s.setupFails i e r.discarded
  | none => s.dropSetup i

/-- R13, R98: the setup record of the entry at a table index takes a strobe report. -/
def State.setupStrobe (s : State) (i : Nat) : State :=
  match s.setup? i with
  | some r => if r.counter ≤ 1 then s.setupReachesZero i r else s.countSetup i
  | none => s

/-- A page record's remaining count falls by one. -/
def State.countPage (s : State) (h : Handset) : State :=
  { s with
    cc := { s.cc with
      pages := s.cc.pages.map fun p => if p.handset == h then { p with remaining := p.remaining - 1 } else p } }

/-- R13, R102: a handset's page record takes a strobe report. -/
def State.pageStrobe (s : State) (h : Handset) : State :=
  match s.page? h with
  | some p => if p.remaining ≤ 1 then s.pageFails h .timeout else s.countPage h
  | none => s

/-- R13, R88: a find record takes a strobe report. -/
def State.findStrobe (s : State) (r : Nat) : State :=
  match s.findRecord? r with
  | some f =>
    if f.remaining ≤ 1 then s.expireFind r f else s.setFind r (some { f with remaining := f.remaining - 1 })
  | none => s

/-- R13, R131, R134, R138, R141: an outbound record takes a strobe report. -/
def State.outStrobe (s : State) (r : Nat) : State :=
  match s.outRecord? r with
  | some o =>
    match o.phase with
    | .seeking m _ => if s.tb.due m then s.closeWindow r else s
    | .asking l t m n =>
      if n ≤ 1 then s.nextCandidate r .timeout else s.setOut r (some { o with phase := .asking l t m (n - 1) })
    | .switching _ m _ => if s.tb.due m then s.startFallback r else s
    | .fallback t m c n =>
      if n ≤ 1 then s.expireFallback r else s.setOut r (some { o with phase := .fallback t m c (n - 1) })
  | none => s

/-- R13, R156, R158: an inbound record takes a strobe report. -/
def State.inStrobe (s : State) (r : Nat) : State :=
  match s.inRecord? r with
  | some o =>
    match o.phase with
    | .reserved => if s.tb.due o.switchMark then s.startAwaiting r else s
    | .awaiting n =>
      if n ≤ 1 then s.expireArrival r else s.setIn r (some { o with phase := .awaiting (n - 1) })
  | none => s

/-- R13, R171: Station Control takes a strobe report in LISTENING, and with it a regain report of the same strobe (log 2). A
counter at 0 waits for the mark: a strobe report that finds the mark known follows the regain, and the station is ACTIVE. -/
def State.quietStrobe (s : State) : State :=
  if s.sc.station = .listening then
    match s.sc.quiet with
    | some 0 => if s.tb.known then s.becomeActive else s
    | some 1 => s.quietReachesZero
    | some (n + 2) => s.setQuiet (some (n + 1))
    | none => s
  else s

/-- R14, R173: the drain counter takes a slow tick, in DRAINING. -/
def State.drainTick (s : State) : State :=
  if s.sc.station = .draining then
    match s.sc.drain with
    | some 0 => s
    | some 1 => s.completeDrain .limit
    | some (n + 2) => s.setDrain (some (n + 1))
    | none => s
  else s

/-- R186: the committed slot count is added to BEARER OCCUPANCY. -/
def State.countOccupancy (s : State) : State := s.countBy .bearerOccupancy s.committed

/-! ### The strobe report at every block (R9) -/

/-- One piece of the work of a strobe report. -/
def doStrobeWork (s : State) : StrobeWork → State
  | .measurement => s.measurementStrobe
  | .slotPlanner => s.plannerStrobe
  | .silence i => if s.tb.slowTick then s.silenceTick i.val else s
  | .setup i => s.setupStrobe i.val
  | .page h => s.pageStrobe h
  | .findRecord r => s.findStrobe r.val
  | .outbound r => s.outStrobe r.val
  | .inbound r => s.inStrobe r.val
  | .quietPeriod => s.quietStrobe
  | .drainLimit => if s.tb.slowTick then s.drainTick else s
  | .occupancy => s.countOccupancy

/-- The table indices and record indices. -/
def tableIndices : List (Fin 64) := List.finRange 64
/-- The record indices. -/
def recordIndices : List (Fin 4) := List.finRange 4

/-- All the work of a strobe report in a state, each piece once. -/
def State.strobeWork (s : State) : List StrobeWork :=
  [.measurement, .slotPlanner]
    ++ (tableIndices.filter fun i => (s.entry? i.val).isSome).flatMap (fun i => [.silence i, .setup i])
    ++ s.cc.pages.map (fun p => .page p.handset)
    ++ recordIndices.flatMap (fun r => [.findRecord r, .outbound r, .inbound r])
    ++ [.quietPeriod, .drainLimit, .occupancy]

/-- The pieces of work in the order a command asks for: those it names, as it names them, then the rest. Each piece is
done once, and nothing that is not there is done. -/
def scheduled {α : Type} [DecidableEq α] (order all : List α) : List α :=
  (order.filter fun w => w ∈ all).eraseDups ++ all.filter fun w => w ∉ order

/-- The holdoffs take the strobe report ahead of everything else, so that a holdoff set by this strobe's work counts from
the next strobe (R13). -/
def State.holdoffsStrobe (s : State) : State :=
  tableIndices.foldl (fun t i => t.holdoffStrobe i.val) s

/-- R9: the strobe report at every block, in the order asked for. -/
def State.strobeReport (s : State) (order : List StrobeWork) : State :=
  (scheduled order s.holdoffsStrobe.strobeWork).foldl doStrobeWork s.holdoffsStrobe

/-! ### Sync loss (R6, R8, R9, R26, R68, R120, R144, R162) -/

/-- R120: what a sync loss leaves of a queued notice of the four kinds: one in transmission stays, condemned if it is
CONTENDING. -/
def survivesLoss (q : QueuedNotice) : Bool := !q.notice.bindsMark || q.inTransmission

/-- R120: a CONTENDING notice of the four kinds is marked for removal if it loses contention. -/
def condemn (tx : Transmitter) (q : QueuedNotice) : QueuedNotice :=
  match tx with
  | .contending _ => if q.notice.bindsMark && q.inTransmission then { q with condemned := true } else q
  | .waiting => q
  | .sending _ => q

/-- R120: the Bus Interface takes a sync loss report. -/
def State.busLoss (s : State) : State :=
  let t := { s with bus := { s.bus with queue := (s.bus.queue.filter survivesLoss).map (condemn s.bus.tx) } }
  if s.bus.queue.all survivesLoss then t else t.occupancyFell

/-- One piece of the work of a sync loss report. -/
def doLossWork (s : State) : LossWork → State
  | .slotPlanner => { s with sp := { s.sp with changes := [] } }
  | .measurement => { s with mu := { s.mu with listens := [] } }
  | .outbound r => s.releaseOut r.val
  | .inbound r => s.missArrival r.val .noSync
  | .bus => s.busLoss

/-- All the work of a sync loss report, each piece once. -/
def lossWork : List LossWork :=
  [.slotPlanner, .measurement] ++ recordIndices.map .outbound ++ recordIndices.map .inbound ++ [.bus]

/-- R9: the sync loss report at every block, in the order asked for. -/
def State.lossReport (s : State) (loss : List LossWork) : State := (scheduled loss lossWork).foldl doLossWork s

/-- The mark becomes unknown. -/
def State.loseMark (s : State) : State := { s with tb := { s.tb with known := false } }

/-- R6, R8: a sync loss: the event, the mark unknown, the report. -/
def State.syncLoss (s : State) (reason : Reason) (mark : Mark) (loss : List LossWork) : State :=
  ((s.postWithMark .syncLost 0 0 0 reason mark).loseMark).lossReport loss

/-- R4, R6: a regain: mark 0 and known, and the event. Station Control alone uses the report (R9), and takes it with its
piece of the strobe report's work (`State.quietStrobe`, log 2). -/
def State.regain (s : State) : State :=
  ({ s with tb := { s.tb with mark := 0, known := true } }).postWithMark .syncRegained 0 0 0 .none 0

/-- R1, R2: a strobe advances the local frame count and restarts the watch. -/
def State.countFrame (s : State) : State :=
  { s with tb := { s.tb with frames := s.tb.frames + 1, watch := .running } }

/-- R2: an ordinary strobe advances the mark counter; the mark-known flag stays. -/
def State.advanceMark (s : State) : State := { s with tb := { s.tb with mark := s.tb.mark + 1 } }

/-! ### The commands -/

/-- ORDINARY_STROBE (R1 to R3, R9). -/
def execOrdinaryStrobe (order : List StrobeWork) (s : State) : Host.Outcome State Fault Refusal :=
  .next (s.advanceMark.countFrame.strobeReport order)

/-- R4 to R6: an epoch strobe, up to its strobe report. -/
def State.takeEpoch (s : State) (loss : List LossWork) : State :=
  if !s.tb.known then s.regain
  else if s.tb.mark = 255 then s.advanceMark
  else (s.syncLoss .realigned (s.tb.mark + 1) loss).regain

/-- EPOCH_STROBE (R4 to R6, R9). -/
def execEpochStrobe (loss : List LossWork) (order : List StrobeWork) (s : State) : Host.Outcome State Fault Refusal :=
  .next ((s.takeEpoch loss).countFrame.strobeReport order)

/-- R7: the watch returns to disarmed. -/
def State.disarmWatch (s : State) : State := { s with tb := { s.tb with watch := .disarmed } }

/-- STROBE_OVERDUE (R7, R8). A watch that is not running does not expire. -/
def execStrobeOverdue (loss : List LossWork) (s : State) : Host.Outcome State Fault Refusal :=
  .next (match s.tb.watch with
    | .disarmed => s
    | .running =>
      if s.tb.known then s.disarmWatch.syncLoss .overdue s.tb.mark loss else s.disarmWatch)

/-- PLAN_CHANGE_DUE (R25). -/
def execPlanChangeDue (s : State) : Host.Outcome State Fault Refusal := .next s.applyDueChanges

/-- OVERHEARD_EXPIRY (R60): the overheard entry of a handset that this report brings to the overheard life goes. -/
def execOverheardExpiry (h : Handset) (s : State) : Host.Outcome State Fault Refusal :=
  .next (match s.overheard? h with
    | some o => if s.sc.config.overheardLife ≤ o.age + 1 then s.removeOverheard h else s
    | none => s)

/-- TARGETED_LISTEN_DUE (R67). -/
def execTargetedListenDue (s : State) : Host.Outcome State Fault Refusal := .next s.endDueListens

/-- HOLDOFF_EXPIRY (R46): a holdoff of 1 is brought to 0. -/
def execHoldoffExpiry (i : Fin 64) (s : State) : Host.Outcome State Fault Refusal :=
  .next (s.modifyEntry i.val fun e => if e.holdoff = 1 then holdoffReachesZero s.sc.config e else e)

/-- IDLE_EXPIRY (R80): an IDLE entry that this slow tick brings to the idle expiry is freed. -/
def execIdleExpiry (i : Fin 64) (s : State) : Host.Outcome State Fault Refusal :=
  .next (match s.entry? i.val with
    | some e =>
      match e.phase with
      | .idle n => if s.sc.config.idleExpiry ≤ n + 1 then s.expireIdle i.val e else s
      | .setup _ _ _ => s
      | .inCall _ _ _ => s
      | .leaving _ _ _ => s
      | .arriving _ _ => s
    | none => s)

/-- SETUP_COUNTER_EXPIRY (R98): a setup counter at its last frame is brought to 0. -/
def execSetupCounterExpiry (i : Fin 64) (s : State) : Host.Outcome State Fault Refusal :=
  .next (match s.setup? i.val with
    | some r => if r.counter ≤ 1 then s.setupReachesZero i.val r else s
    | none => s)

/-- PAGE_TIMEOUT (R102): a page record at its last frame expires. -/
def execPageTimeout (h : Handset) (s : State) : Host.Outcome State Fault Refusal :=
  .next (match s.page? h with
    | some p => if p.remaining ≤ 1 then s.pageFails h .timeout else s
    | none => s)

/-- FIND_EXPIRY (R88): a find record at its last frame expires. -/
def execFindExpiry (r : Fin 4) (s : State) : Host.Outcome State Fault Refusal :=
  .next (match s.findRecord? r.val with
    | some f => if f.remaining ≤ 1 then s.expireFind r.val f else s
    | none => s)

/-- REPLY_BY_MARK_DUE (R131). -/
def execReplyByMarkDue (r : Fin 4) (s : State) : Host.Outcome State Fault Refusal :=
  .next (match s.outRecord? r.val with
    | some o =>
      match o.phase with
      | .seeking m _ => if s.tb.due m then s.closeWindow r.val else s
      | .asking _ _ _ _ => s
      | .switching _ _ _ => s
      | .fallback _ _ _ _ => s
    | none => s)

/-- TAKE_TIMEOUT (R134): the counter of an ASKING record at its last frame expires. -/
def execTakeTimeout (r : Fin 4) (s : State) : Host.Outcome State Fault Refusal :=
  .next (match s.outRecord? r.val with
    | some o =>
      match o.phase with
      | .asking _ _ _ n => if n ≤ 1 then s.nextCandidate r.val .timeout else s
      | .seeking _ _ => s
      | .switching _ _ _ => s
      | .fallback _ _ _ _ => s
    | none => s)

/-- SWITCH_MARK_DUE_OUTBOUND (R138). -/
def execSwitchMarkDueOutbound (r : Fin 4) (s : State) : Host.Outcome State Fault Refusal :=
  .next (match s.outRecord? r.val with
    | some o =>
      match o.phase with
      | .switching _ m _ => if s.tb.due m then s.startFallback r.val else s
      | .seeking _ _ => s
      | .asking _ _ _ _ => s
      | .fallback _ _ _ _ => s
    | none => s)

/-- FALLBACK_EXPIRY (R141): the counter of a FALLBACK record at its last frame expires. -/
def execFallbackExpiry (r : Fin 4) (s : State) : Host.Outcome State Fault Refusal :=
  .next (match s.outRecord? r.val with
    | some o =>
      match o.phase with
      | .fallback _ _ _ n => if n ≤ 1 then s.expireFallback r.val else s
      | .seeking _ _ => s
      | .asking _ _ _ _ => s
      | .switching _ _ _ => s
    | none => s)

/-- SWITCH_MARK_DUE_INBOUND (R156). -/
def execSwitchMarkDueInbound (r : Fin 4) (s : State) : Host.Outcome State Fault Refusal :=
  .next (match s.inRecord? r.val with
    | some o =>
      match o.phase with
      | .reserved => if s.tb.due o.switchMark then s.startAwaiting r.val else s
      | .awaiting _ => s
    | none => s)

/-- ARRIVAL_WINDOW_EXPIRY (R158): the counter of an AWAITING record at its last frame expires. -/
def execArrivalWindowExpiry (r : Fin 4) (s : State) : Host.Outcome State Fault Refusal :=
  .next (match s.inRecord? r.val with
    | some o =>
      match o.phase with
      | .awaiting n => if n ≤ 1 then s.expireArrival r.val else s
      | .reserved => s
    | none => s)

/-- QUIET_PERIOD_EXPIRY (R171): the quiet-period counter at its last frame is brought to 0. -/
def execQuietPeriodExpiry (s : State) : Host.Outcome State Fault Refusal :=
  .next (if s.sc.station = .listening ∧ s.sc.quiet = some 1 then s.quietReachesZero else s)

/-- DRAIN_LIMIT_EXPIRY (R173): the drain counter at its last slow tick expires. -/
def execDrainLimitExpiry (s : State) : Host.Outcome State Fault Refusal :=
  .next (if s.sc.station = .draining ∧ s.sc.drain = some 1 then s.completeDrain .limit else s)

end Sys2Proof.Machine
end

