-- ==== Sys2Proof/Machine/HostLink.lean ====
section
/-! DEFINITION. The host's transactions (R178 to R187) with the commands of station life (R166 to R176), paging (R99),
clearing (R104) and location (R87), and the full reset (R177). -/
namespace Sys2Proof.Machine

/-! ### Transactions (R178, R190) -/

/-- R178, R190: the host makes a transaction of these bytes: the command that they spell waits behind those before it. -/
def State.transact (s : State) (bytes : List Byte) : State := { s with pending := s.pending ++ [commandOfBytes bytes] }

/-- R178: a complete transaction shifts out the pending response, and the command's own response becomes pending. -/
def State.respond (s : State) (r : Response) : State :=
  { s with hl := { s.hl with response := r, shifted := some { response := s.hl.response, bytes := 64 } } }

/-- R178: a response with no body. -/
def State.answer (s : State) (command : Byte) (code : ResponseCode) : State :=
  s.respond { command := command, code := code, index := 0, body := .empty }

/-- R178: a response DONE with a body. -/
def State.report (s : State) (command : Byte) (body : ResponseBody) : State :=
  s.respond { command := command, code := .done, index := 0, body := body }

/-- R180: a handset outside 1 to 16,777,215. -/
def badHandset (h : Handset) : Bool := h == 0

/-! ### Station life (R166 to R176) -/

/-- Whether the station is UNCONFIGURED or CONFIGURED. -/
def State.idleStation (s : State) : Bool := s.sc.station == .unconfigured || s.sc.station == .configured

/-- R167: CONFIGURE taken. -/
def State.storeConfig (s : State) (c : ConfigRecord) : State :=
  { s with sc := { s.sc with station := .configured, config := c } }

/-- CONFIGURE (R167, R168). -/
def execConfigure (record : ConfigWord) (s : State) : Host.Outcome State Fault Refusal :=
  .next (if s.idleStation then (s.storeConfig (configOfWord record)).answer 1 .done else s.answer 1 .busy)

/-- R170: JOIN whose checks pass. -/
def State.joinSegment (s : State) : State :=
  { s with
    sp := { s.sp.clearPlan with beaconQ := [], cursor := s.sc.config.scanFirstCarrier }
    mu := Measurement.reset
    rc := { s.rc with table := Vector.replicate 64 none, finds := Vector.replicate 4 none }
    cc := { s.cc with
      allocCursor := { slot := s.sc.config.scanFirstSlot, carrier := s.sc.config.scanFirstCarrier }
      setups := []
      pages := []
      rotation := none }
    he := { s.he with outbound := Vector.replicate 4 none, inbound := Vector.replicate 4 none }
    bus := s.bus.clear
    sc := { s.sc with station := .listening, quiet := some s.sc.config.quietPeriod, drain := none } }

/-- JOIN (R169, R170). -/
def execJoin (s : State) : Host.Outcome State Fault Refusal :=
  .next (match s.sc.station with
    | .unconfigured => s.respond { command := 2, code := .configError, index := 1, body := .empty }
    | .configured =>
      match joinFailure? s.sc.config with
      | some k => s.respond { command := 2, code := .configError, index := k, body := .empty }
      | none => s.joinSegment.answer 2 .done
    | .listening => s.answer 2 .busy
    | .active => s.answer 2 .busy
    | .draining => s.answer 2 .busy)

/-- R172: LEAVE in ACTIVE. -/
def State.startDrain (s : State) : State :=
  ({ s with sc := { s.sc with station := .draining, drain := some s.sc.config.drainLimit } }).drainTest

/-- R172: LEAVE in LISTENING. -/
def State.stopListening (s : State) : State :=
  { s with
    mu := { s.mu with overheard := [], listens := [] }
    bus := s.bus.clear
    sc := { s.sc with station := .configured, quiet := none } }

/-- LEAVE (R172). -/
def execLeave (s : State) : Host.Outcome State Fault Refusal :=
  .next (match s.sc.station with
    | .active => s.startDrain.answer 3 .done
    | .listening => s.stopListening.answer 3 .done
    | .unconfigured => s.answer 3 .busy
    | .configured => s.answer 3 .busy
    | .draining => s.answer 3 .busy)

/-- R176: RESTART taken. -/
def State.restart (s : State) : State :=
  { s with
    sp := { s.sp.clearPlan with beaconQ := [] }
    mu := Measurement.reset
    rc := { s.rc with table := Vector.replicate 64 none, finds := Vector.replicate 4 none }
    cc := { s.cc with setups := [], pages := [], rotation := none }
    he := { s.he with outbound := Vector.replicate 4 none, inbound := Vector.replicate 4 none }
    bus := s.bus.clear
    sc := { s.sc with station := .configured, quiet := none, drain := none }
    hl := { s.hl with events := [], lost := 0 } }

/-- RESTART (R176). -/
def execRestart (s : State) : Host.Outcome State Fault Refusal :=
  .next (if s.sc.station = .unconfigured then s.answer 4 .busy else s.restart.answer 4 .done)

/-! ### Paging, clearing, location (R99, R104, R87) -/

/-- R99: a page record is refreshed or added. -/
def State.setPage (s : State) (h : Handset) (tag : Tag) : State :=
  match s.page? h with
  | some _ => s.refreshPage h tag
  | none => s.addPage h tag

/-- R99: whether the page list has a record for h or room for one. -/
def State.pageRoom (s : State) (h : Handset) : Bool :=
  (s.page? h).isSome || s.cc.pages.length < Config.pagePlaces

/-- R99: the first check of PAGE that fails. -/
def State.pageRefusal? (s : State) (h : Handset) : Option ResponseCode :=
  if badHandset h then some .badCommand
  else if !s.isActive then some .notActive
  else
    match s.find? h with
    | none => some .notHere
    | some (_, e) => if !e.isIdle then some .busy else if !s.pageRoom h then some .pageFull else none

/-- PAGE (R99). -/
def execPage (h : Handset) (tag : Tag) (s : State) : Host.Outcome State Fault Refusal :=
  .next (match s.pageRefusal? h with
    | some code => s.answer 5 code
    | none => (s.setPage h tag).answer 5 .done)

/-- R104: what CLEAR CALL makes of an entry: the call is cleared, or the refusal. -/
def State.clearByHost (s : State) (i : Nat) (e : Entry) : State :=
  match e.phase with
  | .setup _ _ _ => (s.clearTheCall i e .host).answer 6 .done
  | .inCall _ _ _ => (s.clearTheCall i e .host).answer 6 .done
  | .leaving _ _ _ => s.answer 6 .inTransit
  | .arriving _ _ => s.answer 6 .inTransit
  | .idle _ => s.answer 6 .noCall

/-- CLEAR CALL (R104). -/
def execClearCall (h : Handset) (s : State) : Host.Outcome State Fault Refusal :=
  .next (if badHandset h then s.answer 6 .badCommand
    else if !s.serving then s.answer 6 .notActive
    else
      match s.find? h with
      | none => s.answer 6 .notHere
      | some (i, e) => s.clearByHost i e)

/-- R87: LOCATE of a handset not held here with no find record running. -/
def State.beginFind (s : State) (h : Handset) : State :=
  match s.freeFind with
  | none => s.answer 7 .findFull
  | some r =>
    if s.admits (s.findNotice h) then (s.startFind h r).answer 7 .done else s.answer 7 .queuePressed

/-- LOCATE (R87). -/
def execLocate (h : Handset) (s : State) : Host.Outcome State Fault Refusal :=
  .next (if badHandset h then s.answer 7 .badCommand
    else if !s.isActive then s.answer 7 .notActive
    else
      match s.find? h with
      | some (_, e) => (s.locatedHere e).answer 7 .done
      | none => if (s.findFor h).isSome then s.answer 7 .already else s.beginFind h)

/-! ### Reading the part's state (R181 to R183) -/

/-- R182: the report of a held entry. -/
def State.heldReport (s : State) (i : Nat) (e : Entry) : HeldReport where
  index := i
  entry := e
  merit := e.merit s.sc.config
  setup := s.setup? i
  outbound := (s.outOf i).bind s.outRecord?
  inbound := (s.inOf i).bind s.inRecord?
  page := none
  find := none

/-- R181: a held report of QUERY HANDSET carries the page record and the running find record too. -/
def State.queryReport (s : State) (i : Nat) (e : Entry) : HeldReport :=
  { s.heldReport i e with
    page := s.page? e.handset
    find := (s.findFor e.handset).bind s.findRecord? }

/-- R181: the three forms of the answer. -/
def State.queryBody (s : State) (h : Handset) : ResponseBody :=
  match s.find? h with
  | some (i, e) => .held (s.queryReport i e)
  | none =>
    match s.overheard? h with
    | some o => .overheard o
    | none => .notHeard

/-- QUERY HANDSET (R181). -/
def execQueryHandset (h : Handset) (s : State) : Host.Outcome State Fault Refusal :=
  .next (if badHandset h then s.answer 8 .badCommand else s.report 8 (s.queryBody h))

/-- R182: the entry at a table index. -/
def State.entryBody (s : State) (i : Nat) : ResponseBody :=
  match s.entry? i with
  | some e => .held (s.heldReport i e)
  | none => .freeEntry

/-- READ ENTRY (R182). -/
def execReadEntry (index : Byte) (s : State) : Host.Outcome State Fault Refusal :=
  .next (if 64 ≤ index.toNat then s.answer 9 .badCommand else s.report 9 (s.entryBody index.toNat))

/-- R183: the status. -/
def State.statusReport (s : State) : StatusReport where
  station := s.sc.station
  known := s.tb.known
  mark := s.tb.mark
  frames := s.tb.frames
  entriesUsed := s.entriesUsed
  committed := s.committed
  outboundUsed := s.he.outbound.toList.countP Option.isSome
  inboundUsed := s.he.inbound.toList.countP Option.isSome
  occupancy := s.occupancy
  mode := s.bus.mode
  events := s.hl.events.length
  lost := s.hl.lost

/-- READ STATUS (R183). -/
def execReadStatus (s : State) : Host.Outcome State Fault Refusal :=
  .next (s.report 10 (.status s.statusReport))

/-! ### Events and tallies (R185, R186) -/

/-- The highest level in the event queue. -/
def highestLevel (l : List EventRecord) : Nat := l.foldl (fun m e => max m e.level) 0

/-- R185: the place of the oldest record of the highest level present. -/
def nextEvent? (l : List EventRecord) : Option Nat := l.findIdx? fun e => e.level == highestLevel l

/-- R185: the NONE record. -/
def EventRecord.nothing : EventRecord where
  kind := .none
  handset := 0
  other := 0
  tag := 0
  reason := .none
  mark := 0
  lost := 0

/-- R185: the record READ EVENT returns, before the lost count is written into it. -/
def HostLink.chosenEvent (h : HostLink) : EventRecord :=
  ((nextEvent? h.events).bind fun k => h.events[k]?).getD EventRecord.nothing

/-- R185: the event queue after READ EVENT. -/
def HostLink.remainingEvents (h : HostLink) : List EventRecord :=
  match nextEvent? h.events with
  | some k => h.events.eraseIdx k
  | none => h.events

/-- R185: the record leaves the queue with the lost count written in it, and the lost count returns to 0. -/
def State.takeEvent (s : State) : State :=
  { s with hl := { s.hl with events := s.hl.remainingEvents, lost := 0 } }

/-- READ EVENT (R185). -/
def execReadEvent (s : State) : Host.Outcome State Fault Refusal :=
  .next (s.takeEvent.report 11 (.event { s.hl.chosenEvent with lost := s.hl.lost }))

/-- READ TALLIES (R186). -/
def execReadTallies (s : State) : Host.Outcome State Fault Refusal :=
  .next (s.report 12 (.tallies s.hl.tallies))

/-- R186: all tallies are set to 0. -/
def State.clearTallies (s : State) : State := { s with hl := { s.hl with tallies := Tallies.zero } }

/-- CLEAR TALLIES (R186). -/
def execClearTallies (s : State) : Host.Outcome State Fault Refusal := .next (s.clearTallies.answer 13 .done)

/-! ### Transactions without a command, and the full reset (R178, R180, R177) -/

/-- UNDEFINED_COMMAND (R180); a code that names a command or is 0 contradicts the row (log 22). -/
def execUndefinedCommand (code : Byte) (s : State) : Host.Outcome State Fault Refusal :=
  if 14 ≤ code.toNat then .next (s.answer code .badCommand) else .fault .notThisCommand

/-- R178: the pending response is shifted out, in so many bytes, and stays in place. -/
def State.shiftOut (s : State) (bytes : Nat) : State :=
  { s with hl := { s.hl with shifted := some { response := s.hl.response, bytes := bytes } } }

/-- NULL_COMMAND (R178). -/
def execNullCommand (s : State) : Host.Outcome State Fault Refusal := .next (s.shiftOut 64)

/-- INCOMPLETE_TRANSACTION (R178); 64 bytes or more contradict the row (log 22). -/
def execIncompleteTransaction (clocked : Nat) (s : State) : Host.Outcome State Fault Refusal :=
  if clocked < 64 then .next (s.shiftOut clocked) else .fault .notThisCommand

/-- R177: every piece of the part's state at its full reset value; the model's own two fields stay. -/
def State.fullReset (s : State) : State := { State.reset with pending := s.pending, drawn := s.drawn }

/-- FULL_RESET (R177). -/
def execFullReset (s : State) : Host.Outcome State Fault Refusal := .next s.fullReset

end Sys2Proof.Machine
end

