-- ==== Sys2Proof/Machine/Notices.lean ====
section
/-! DEFINITION. The handling of the oldest notice of the receive queue (R123 to R125). A row acts when the oldest notice is
of its kind; otherwise no such handling takes place and nothing changes (log 10). -/
namespace Sys2Proof.Machine

/-- R123: the oldest notice of the receive queue. -/
def State.oldestReceived (s : State) : Option Notice := s.bus.rx.head?

/-- R123: the oldest notice leaves the receive queue once it has been handled. -/
def State.dropReceived (s : State) : State := { s with bus := { s.bus with rx := s.bus.rx.tail } }

/-- R125: supersession alone, by a holder notice. -/
def State.supersedeOnly (s : State) (n : Notice) : State := if n.isHolder then s.supersede n else s

/-- R124, R125: a notice is handed on by the station state, and then leaves the queue. -/
def State.dispatch (s : State) (n : Notice) (handed : State) : State :=
  (if s.serving then handed else if s.joined then s.supersedeOnly n else s).dropReceived

/-- R124, R135, R136: a TAKE is handled. -/
def State.handleTake (s : State) (n : Notice) (seek : BitVec 8) (c : Cell) : State :=
  s.dispatch n (if s.addressedHere n then s.takeTake n seek c else s)

/-- R124, R133: a DECLINE is handled. -/
def State.handleDecline (s : State) (n : Notice) (seek : BitVec 8) (reason : DeclineReason) : State :=
  s.dispatch n (if s.addressedHere n then s.takeDecline n seek reason else s)

/-- R124, R129, R130: an OFFER is handled. -/
def State.handleOffer (s : State) (n : Notice) (seek : BitVec 8) (merit freeSlots : Nat) : State :=
  s.dispatch n (if s.addressedHere n then s.takeOffer n seek merit freeSlots else s)

/-- R124, R81 to R85, R140: a CLAIM is handled. -/
def State.handleClaim (s : State) (n : Notice) : State := s.dispatch n (s.takeClaim n)

/-- R124, R83, R151: a TRANSFER is handled: the acceptance checks when it is addressed here, else supersession. -/
def State.handleTransfer (s : State) (n : Notice) (seek : BitVec 8) (tag : Tag) : State :=
  s.dispatch n (if s.addressedHere n then s.takeTransfer n seek tag else s.supersede n)

/-- R124, R81, R148: a SEEK is handled. -/
def State.handleSeek (s : State) (n : Notice) (seek : BitVec 8) (c : Cell) : State :=
  s.dispatch n ((s.supersede n).takeSeek n seek c)

/-- R124, R81, R88: a HERE is handled. -/
def State.handleHere (s : State) (n : Notice) (number : BitVec 8) (inCall : Bool) : State :=
  s.dispatch n (if s.addressedHere n then (s.supersede n).takeAnswer n number inCall else s.supersede n)

/-- R124, R89: a FIND is handled. -/
def State.handleFind (s : State) (n : Notice) (number : BitVec 8) : State := s.dispatch n (s.takeFind n number)

/-- TAKE_RECEIVED. -/
def execTakeReceived (s : State) : Host.Outcome State Fault Refusal :=
  .next (match s.oldestReceived with
    | some n =>
      match n.body with
      | .take seek c => s.handleTake n seek c
      | .decline _ _ | .claim _ | .transfer _ _ | .offer _ _ _ | .seek _ _ _ | .here _ _ | .find _ => s
    | none => s)

/-- DECLINE_RECEIVED. -/
def execDeclineReceived (s : State) : Host.Outcome State Fault Refusal :=
  .next (match s.oldestReceived with
    | some n =>
      match n.body with
      | .decline seek reason => s.handleDecline n seek reason
      | .take _ _ | .claim _ | .transfer _ _ | .offer _ _ _ | .seek _ _ _ | .here _ _ | .find _ => s
    | none => s)

/-- OFFER_RECEIVED. -/
def execOfferReceived (s : State) : Host.Outcome State Fault Refusal :=
  .next (match s.oldestReceived with
    | some n =>
      match n.body with
      | .offer seek merit freeSlots => s.handleOffer n seek merit freeSlots
      | .take _ _ | .decline _ _ | .claim _ | .transfer _ _ | .seek _ _ _ | .here _ _ | .find _ => s
    | none => s)

/-- CLAIM_RECEIVED. -/
def execClaimReceived (s : State) : Host.Outcome State Fault Refusal :=
  .next (match s.oldestReceived with
    | some n =>
      match n.body with
      | .claim _ => s.handleClaim n
      | .take _ _ | .decline _ _ | .transfer _ _ | .offer _ _ _ | .seek _ _ _ | .here _ _ | .find _ => s
    | none => s)

/-- TRANSFER_RECEIVED. -/
def execTransferReceived (s : State) : Host.Outcome State Fault Refusal :=
  .next (match s.oldestReceived with
    | some n =>
      match n.body with
      | .transfer seek tag => s.handleTransfer n seek tag
      | .take _ _ | .decline _ _ | .claim _ | .offer _ _ _ | .seek _ _ _ | .here _ _ | .find _ => s
    | none => s)

/-- SEEK_RECEIVED. -/
def execSeekReceived (s : State) : Host.Outcome State Fault Refusal :=
  .next (match s.oldestReceived with
    | some n =>
      match n.body with
      | .seek seek c _ => s.handleSeek n seek c
      | .take _ _ | .decline _ _ | .claim _ | .transfer _ _ | .offer _ _ _ | .here _ _ | .find _ => s
    | none => s)

/-- HERE_RECEIVED. -/
def execHereReceived (s : State) : Host.Outcome State Fault Refusal :=
  .next (match s.oldestReceived with
    | some n =>
      match n.body with
      | .here number inCall => s.handleHere n number inCall
      | .take _ _ | .decline _ _ | .claim _ | .transfer _ _ | .offer _ _ _ | .seek _ _ _ | .find _ => s
    | none => s)

/-- FIND_RECEIVED. -/
def execFindReceived (s : State) : Host.Outcome State Fault Refusal :=
  .next (match s.oldestReceived with
    | some n =>
      match n.body with
      | .find number => s.handleFind n number
      | .take _ _ | .decline _ _ | .claim _ | .transfer _ _ | .offer _ _ _ | .seek _ _ _ | .here _ _ => s
    | none => s)

end Sys2Proof.Machine
end

