-- ==== Sys2Proof/Machine/Radio.lean ====
section
/-! DEFINITION. Burst reports, routed by the role their slot has in the plan in force (R34, R35). A report that R34 discards
changes nothing. A row takes the reports that are its own: a record whose slot has another row's role, or that carries
another row's message, is no such command and has no effect (log 11). -/
namespace Sys2Proof.Machine

/-! ### Listens (R54, R57) -/

/-- R57: the handset a burst report names; its identity is read only with sync and a passed check (R189). -/
def Burst.handset? (b : Burst) : Option Handset := if b.origin == .handset then b.identity else none

/-- R54, R57: the Measurement Unit takes a listen report: the map first, then the hearing if it is one. -/
def State.takeListen (s : State) (b : Burst) : State :=
  let t := s.feedMap { slot := b.slot, carrier := b.carrier } b.level
  match b.handset? with
  | some h => t.hearing h b.level { slot := b.slot, carrier := b.carrier }
  | none => t

/-- R69: no report reaches the collections before the station joins (log 12). -/
def State.routeListen (s : State) (b : Burst) : State := if s.joined then s.takeListen b else s

/-- R34, R35: a burst report of a listen. -/
def State.listenBurst (s : State) (b : Burst) : State :=
  match (s.planned b.slot).role with
  | .listen _ _ => if s.accepts b then (s.markReported b.slot).routeListen b else s
  | .idle | .beacon _ | .bearer _ _ | .held _ _ => s

/-- LISTEN_REPORT (R54). -/
def execListenReport (record : BurstWord) (s : State) : Host.Outcome State Fault Refusal :=
  .next (s.listenBurst (Burst.ofWord record))

/-! ### Beacon uplinks (R35) -/

/-- The four messages of the beacon uplink rows; CLEAR and no message belong to none of them. -/
inductive Uplink where
  | attach (epoch : BitVec 8) (target : Nat)
  | presence
  | call
  | pageReply (tag : Tag)
deriving DecidableEq, Repr

/-- The uplink message of a burst report. -/
def BurstMessage.uplink? : BurstMessage → Option Uplink
  | .attach e t => some (.attach e t)
  | .presence => some .presence
  | .call => some .call
  | .pageReply t => some (.pageReply t)
  | .none => Option.none
  | .clear => Option.none

/-- R35: what is done with an uplink message of a handset: ATTACH and PRESENCE go to the Registration Controller, an ATTACH
for another station is a hearing, CALL and PAGE REPLY go to the Registration Controller and then to the Call Controller. -/
def State.takeUplink (s : State) (b : Burst) (h : Handset) (u : Uplink) : State :=
  match u with
  | .attach epoch target =>
    if target = s.stationNumber then s.takeAttach h epoch b.level
    else s.hearing h b.level { slot := b.slot, carrier := b.carrier }
  | .presence => s.takePresence h b.level
  | .call => (s.hearUplink h b.level).takeCall h
  | .pageReply tag => (s.hearUplink h b.level).takePageReply h tag

/-- R35: an accepted beacon uplink report; it exists only in ACTIVE and DRAINING (R95; log 12). -/
def State.routeUplink (s : State) (b : Burst) : State :=
  if s.serving then
    match b.handset?, b.message.uplink? with
    | some h, some u => s.takeUplink b h u
    | some _, none => s
    | none, _ => s
  else s

/-- The kind of an uplink message, which says whose row a report is. -/
inductive UplinkKind where
  | attach | presence | call | pageReply
deriving DecidableEq, Repr

/-- The kind of an uplink message. -/
def Uplink.kind : Uplink → UplinkKind
  | .attach _ _ => .attach
  | .presence => .presence
  | .call => .call
  | .pageReply _ => .pageReply

/-- Whether a burst report is a row's own: it carries no uplink message, or one of the row's kind (log 11). -/
def Burst.ofRow (b : Burst) (k : UplinkKind) : Bool :=
  match b.message.uplink? with
  | some u => u.kind == k
  | none => true

/-- R34, R35: a burst report of the beacon uplink. -/
def State.beaconBurst (s : State) (k : UplinkKind) (b : Burst) : State :=
  match (s.planned b.slot).role with
  | .beacon _ => if s.accepts b && b.ofRow k then (s.markReported b.slot).routeUplink b else s
  | .idle | .listen _ _ | .bearer _ _ | .held _ _ => s

/-- ATTACH (R73 to R77, R57). -/
def execAttach (record : BurstWord) (s : State) : Host.Outcome State Fault Refusal :=
  .next (s.beaconBurst .attach (Burst.ofWord record))

/-- PRESENCE (R79). -/
def execPresence (record : BurstWord) (s : State) : Host.Outcome State Fault Refusal :=
  .next (s.beaconBurst .presence (Burst.ofWord record))

/-- CALL (R79, R95, R96). -/
def execCall (record : BurstWord) (s : State) : Host.Outcome State Fault Refusal :=
  .next (s.beaconBurst .call (Burst.ofWord record))

/-- PAGE_REPLY (R79, R101). -/
def execPageReply (record : BurstWord) (s : State) : Host.Outcome State Fault Refusal :=
  .next (s.beaconBurst .pageReply (Burst.ofWord record))

/-! ### Bearers and held slots (R35, R39 to R42) -/

/-- R39, R41, R42: the Measurement Unit takes a report of an entry: the filter step, then the ring and the miss run. -/
def Entry.measure (e : Entry) (w : Nat) (r : LinkReport) : Entry :=
  ({ e with level := filterStep e.level r.level w }).enterOutcome r.sync r.check

/-- R39: the Measurement Unit takes a bearer or held report of the entry at a table index. -/
def State.measure (s : State) (i : Nat) (r : LinkReport) : State :=
  s.modifyEntry i fun e => e.measure s.sc.config.filterShift r

/-- R157: the arrival of the ARRIVING entry of an AWAITING record. -/
def State.tryArrival (s : State) (i : Nat) (e : Entry) (c : Cell) (t : Tag) : State :=
  match s.inOf i with
  | some r =>
    match s.inRecord? r with
    | some o =>
      match o.phase with
      | .awaiting _ => s.arrive r i o e c t
      | .reserved => s
    | none => s
  | none => s

/-- R35, R45, R47, R157: the Handover Engine takes a bearer report of the entry at a table index, as the Call Controller
has left it. -/
def State.handoverTakesReport (s : State) (i : Nat) (r : LinkReport) : State :=
  match s.entry? i with
  | some e =>
    match e.phase with
    | .inCall _ _ _ => s.testTrigger i
    | .arriving c t => if r.good then s.tryArrival i e c t else s
    | .setup _ _ _ => s
    | .leaving _ _ _ => s
    | .idle _ => s
  | none => s

/-- R35: the three blocks take a bearer report in their order. -/
def State.routeBearer (s : State) (i : Nat) (r : LinkReport) : State :=
  ((s.measure i r).callTakesReport i r).handoverTakesReport i r

/-- R35: a bearer report is handed on while the slot plan still holds the slot for the handset. -/
def State.bearerFor (s : State) (b : Burst) (h : Handset) : State :=
  if s.stillCarries b.slot h then
    match s.lookup h with
    | some i => s.routeBearer i (b.forHandset h)
    | none => s
  else s

/-- R34, R35: a burst report of a bearer. -/
def State.bearerBurst (s : State) (b : Burst) : State :=
  match (s.planned b.slot).role with
  | .bearer _ h => if s.accepts b then (s.markReported b.slot).bearerFor b h else s
  | .idle | .beacon _ | .listen _ _ | .held _ _ => s

/-- BEARER_REPORT (R35, R39 to R49, R97, R103, R105, R157). -/
def execBearerReport (record : BurstWord) (s : State) : Host.Outcome State Fault Refusal :=
  .next (s.bearerBurst (Burst.ofWord record))

/-- R139: a good held report of a FALLBACK record: the end of the call, or a return. -/
def State.goodHeld (s : State) (r i : Nat) (o : OutRecord) (e : Entry) (target : Nat) (clear : Bool) : State :=
  if clear then s.clearTheCall i e .handset else s.returnToOld r o e target

/-- R139: the Handover Engine takes a held report of the entry at a table index. -/
def State.heldTakesReport (s : State) (i : Nat) (k : LinkReport) : State :=
  match s.entry? i, s.outOf i with
  | some e, some r =>
    match s.outRecord? r with
    | some o =>
      match o.phase with
      | .fallback target _ _ _ => if k.good then s.goodHeld r i o e target k.clear else s
      | .seeking _ _ => s
      | .asking _ _ _ _ => s
      | .switching _ _ _ => s
    | none => s
  | some _, none => s
  | none, _ => s

/-- R35, R139: a held report is handed on while the slot plan still holds the slot for the handset. -/
def State.heldFor (s : State) (b : Burst) (h : Handset) : State :=
  if s.stillCarries b.slot h then
    match s.lookup h with
    | some i => (s.measure i (b.forHandset h)).heldTakesReport i (b.forHandset h)
    | none => s
  else s

/-- R34, R35: a burst report of a held slot. -/
def State.heldBurst (s : State) (b : Burst) : State :=
  match (s.planned b.slot).role with
  | .held _ h => if s.accepts b then (s.markReported b.slot).heldFor b h else s
  | .idle | .beacon _ | .listen _ _ | .bearer _ _ => s

/-- HELD_REPORT (R139). -/
def execHeldReport (record : BurstWord) (s : State) : Host.Outcome State Fault Refusal :=
  .next (s.heldBurst (Burst.ofWord record))

end Sys2Proof.Machine
end

