-- ==== Sys2Proof/Machine/Dispatch.lean ====
section
/-! DEFINITION. The meaning of every command: one arm for each constructor of Instr, one direct call of its meaning. -/
namespace Sys2Proof.Machine

def exec (i : Instr) (s : State) : Host.Outcome State Fault Refusal :=
  match i with
  | .ordinaryStrobe order => Sys2Proof.Machine.execOrdinaryStrobe order s
  | .epochStrobe loss order => Sys2Proof.Machine.execEpochStrobe loss order s
  | .strobeOverdue loss => Sys2Proof.Machine.execStrobeOverdue loss s
  | .planChangeDue => Sys2Proof.Machine.execPlanChangeDue s
  | .overheardExpiry h => Sys2Proof.Machine.execOverheardExpiry h s
  | .targetedListenDue => Sys2Proof.Machine.execTargetedListenDue s
  | .holdoffExpiry k => Sys2Proof.Machine.execHoldoffExpiry k s
  | .idleExpiry k => Sys2Proof.Machine.execIdleExpiry k s
  | .setupCounterExpiry k => Sys2Proof.Machine.execSetupCounterExpiry k s
  | .pageTimeout h => Sys2Proof.Machine.execPageTimeout h s
  | .findExpiry r => Sys2Proof.Machine.execFindExpiry r s
  | .replyByMarkDue r => Sys2Proof.Machine.execReplyByMarkDue r s
  | .takeTimeout r => Sys2Proof.Machine.execTakeTimeout r s
  | .switchMarkDueOutbound r => Sys2Proof.Machine.execSwitchMarkDueOutbound r s
  | .fallbackExpiry r => Sys2Proof.Machine.execFallbackExpiry r s
  | .switchMarkDueInbound r => Sys2Proof.Machine.execSwitchMarkDueInbound r s
  | .arrivalWindowExpiry r => Sys2Proof.Machine.execArrivalWindowExpiry r s
  | .quietPeriodExpiry => Sys2Proof.Machine.execQuietPeriodExpiry s
  | .drainLimitExpiry => Sys2Proof.Machine.execDrainLimitExpiry s
  | .listenReport record => Sys2Proof.Machine.execListenReport record s
  | .attach record => Sys2Proof.Machine.execAttach record s
  | .presence record => Sys2Proof.Machine.execPresence record s
  | .call record => Sys2Proof.Machine.execCall record s
  | .pageReply record => Sys2Proof.Machine.execPageReply record s
  | .bearerReport record => Sys2Proof.Machine.execBearerReport record s
  | .heldReport record => Sys2Proof.Machine.execHeldReport record s
  | .noticeBegin idle through => Sys2Proof.Machine.execNoticeBegin idle through s
  | .contentionLost bit => Sys2Proof.Machine.execContentionLost bit s
  | .noticeSent => Sys2Proof.Machine.execNoticeSent s
  | .yieldTimeExpiry idle => Sys2Proof.Machine.execYieldTimeExpiry idle s
  | .noticeHeard length word => Sys2Proof.Machine.execNoticeHeard length word s
  | .takeReceived => Sys2Proof.Machine.execTakeReceived s
  | .declineReceived => Sys2Proof.Machine.execDeclineReceived s
  | .offerReceived => Sys2Proof.Machine.execOfferReceived s
  | .claimReceived => Sys2Proof.Machine.execClaimReceived s
  | .transferReceived => Sys2Proof.Machine.execTransferReceived s
  | .seekReceived => Sys2Proof.Machine.execSeekReceived s
  | .hereReceived => Sys2Proof.Machine.execHereReceived s
  | .findReceived => Sys2Proof.Machine.execFindReceived s
  | .configure record => Sys2Proof.Machine.execConfigure record s
  | .join => Sys2Proof.Machine.execJoin s
  | .leave => Sys2Proof.Machine.execLeave s
  | .restart => Sys2Proof.Machine.execRestart s
  | .page h tag => Sys2Proof.Machine.execPage h tag s
  | .clearCall h => Sys2Proof.Machine.execClearCall h s
  | .locate h => Sys2Proof.Machine.execLocate h s
  | .queryHandset h => Sys2Proof.Machine.execQueryHandset h s
  | .readEntry index => Sys2Proof.Machine.execReadEntry index s
  | .readStatus => Sys2Proof.Machine.execReadStatus s
  | .readEvent => Sys2Proof.Machine.execReadEvent s
  | .readTallies => Sys2Proof.Machine.execReadTallies s
  | .clearTallies => Sys2Proof.Machine.execClearTallies s
  | .undefinedCommand code => Sys2Proof.Machine.execUndefinedCommand code s
  | .nullCommand => Sys2Proof.Machine.execNullCommand s
  | .incompleteTransaction clocked => Sys2Proof.Machine.execIncompleteTransaction clocked s
  | .fullReset => Sys2Proof.Machine.execFullReset s

end Sys2Proof.Machine
end

