-- ==== Sys2Proof/WellFormed.lean ====
section
/-! DEFINITION. Which terms of Instr spell a command of the table. Most operands are bounded by their types; two rows
name only part of the values their operand's type has. -/
namespace Sys2Proof

/-- True of a term that its row of the table allows. UNDEFINED_COMMAND carries a code that names none of the thirteen
commands and is not 0 (R180, R191); an INCOMPLETE_TRANSACTION is released before the 64th byte (R190). -/
def Instr.wellFormed : Instr → Bool
  | .ordinaryStrobe _ => true
  | .epochStrobe _ _ => true
  | .strobeOverdue _ => true
  | .planChangeDue => true
  | .overheardExpiry _ => true
  | .targetedListenDue => true
  | .holdoffExpiry _ => true
  | .idleExpiry _ => true
  | .setupCounterExpiry _ => true
  | .pageTimeout _ => true
  | .findExpiry _ => true
  | .replyByMarkDue _ => true
  | .takeTimeout _ => true
  | .switchMarkDueOutbound _ => true
  | .fallbackExpiry _ => true
  | .switchMarkDueInbound _ => true
  | .arrivalWindowExpiry _ => true
  | .quietPeriodExpiry => true
  | .drainLimitExpiry => true
  | .listenReport _ => true
  | .attach _ => true
  | .presence _ => true
  | .call _ => true
  | .pageReply _ => true
  | .bearerReport _ => true
  | .heldReport _ => true
  | .noticeBegin _ _ => true
  | .contentionLost _ => true
  | .noticeSent => true
  | .yieldTimeExpiry _ => true
  | .noticeHeard _ _ => true
  | .takeReceived => true
  | .declineReceived => true
  | .offerReceived => true
  | .claimReceived => true
  | .transferReceived => true
  | .seekReceived => true
  | .hereReceived => true
  | .findReceived => true
  | .configure _ => true
  | .join => true
  | .leave => true
  | .restart => true
  | .page _ _ => true
  | .clearCall _ => true
  | .locate _ => true
  | .queryHandset _ => true
  | .readEntry _ => true
  | .readStatus => true
  | .readEvent => true
  | .readTallies => true
  | .clearTallies => true
  | .undefinedCommand code => 14 ≤ code.toNat
  | .nullCommand => true
  | .incompleteTransaction clocked => clocked < 64
  | .fullReset => true

end Sys2Proof
end

