-- ==== Sys2Proof/Safety.lean ====
section
/-! DEFINITION. The predicates that statements about the block are made of: what a state that the block can be in satisfies.
-/
namespace Sys2Proof.Machine

/-- Whether every place of a fixed array of records is free. -/
def allFree {α : Type} {n : Nat} (v : Vector (Option α) n) : Prop := ∀ k : Nat, (v[k]?).join = none

/-- Every list and queue is within the size the spec's state tables give it (R23, R31, R56, R63, R99, R115, R122, R129,
R184). -/
structure State.WithinCapacity (s : State) : Prop where
  changes : s.sp.changes.length ≤ Config.changePlaces
  beaconQ : s.sp.beaconQ.length ≤ Config.beaconPlaces
  overheard : s.mu.overheard.length ≤ Config.overheardPlaces
  listens : s.mu.listens.length ≤ Config.listenPlaces
  pages : s.cc.pages.length ≤ Config.pagePlaces
  queue : s.bus.queue.length ≤ Config.queuePlaces
  rx : s.bus.rx.length ≤ Config.receivePlaces
  events : s.hl.events.length ≤ Config.eventPlaces
  lost : s.hl.lost ≤ 255
  candidates : ∀ r o, s.outRecord? r = some o → o.phase.candidates.length ≤ Config.candidatePlaces

/-- Nothing is held against a mark that is unknown: no plan change, no targeted listen, no outbound and no inbound record
(R26, R68, R144, R162). -/
def State.MarkSafe (s : State) : Prop :=
  s.tb.known = false →
    s.sp.changes = [] ∧ s.mu.listens = [] ∧ allFree s.he.outbound ∧ allFree s.he.inbound

/-- No handset has two entries in the attachment table, none has two overheard entries, and none has both kinds (R70, R56).
-/
structure State.HandsetsApart (s : State) : Prop where
  table : ∀ i j e f, s.entry? i = some e → s.entry? j = some f → e.handset = f.handset → i = j
  overheard : (s.mu.overheard.map (·.handset)).Nodup
  apart : ∀ i e o, s.entry? i = some e → o ∈ s.mu.overheard → o.handset ≠ e.handset

/-- Outside ACTIVE and DRAINING the part holds no handset, call, page or handover, commits no slot and has no beacon
message waiting (R18, R90, R107, R147, R165, R36). -/
structure State.EmptyOutOfService (s : State) : Prop where
  table : allFree s.rc.table
  finds : allFree s.rc.finds
  setups : s.cc.setups = []
  pages : s.cc.pages = []
  outbound : allFree s.he.outbound
  inbound : allFree s.he.inbound
  plan : ∀ slot, s.slotEntry slot = .free
  changes : s.sp.changes = []
  moves : s.sp.moves = []
  beaconQ : s.sp.beaconQ = []
  listens : s.mu.listens = []

/-- A station that is not serving is empty. -/
def State.ServiceSafe (s : State) : Prop := s.serving = false → s.EmptyOutOfService

/-- Records, entries and slots agree: an engaged entry's slot is committed to its handset (R18, R96, R154); a plan change
names the owner its slot has (R23); a setup record is a SETUP entry's (R96), an outbound record an IN_CALL or LEAVING entry's
by its state (R127), an inbound record an ARRIVING entry's (R155), and no entry has two of a kind; a standing MOVE is a
SWITCHING record's, for the slot its entry leaves (R33). -/
structure State.RecordsMatch (s : State) : Prop where
  slots : ∀ i e c, s.entry? i = some e → e.cell? = some c →
    1 ≤ c.slot ∧ c.slot ≤ 15 ∧ (s.slotEntry c.slot).owner? = some e.handset
  changes : ∀ c ∈ s.sp.changes, 1 ≤ c.slot ∧ ∃ h, (s.slotEntry c.slot).owner? = some h ∧ c.entry.owner? = some h
  setups : ∀ r ∈ s.cc.setups, ∃ e, s.entry? r.entry = some e ∧ e.isSetup = true
  setupsOnce : (s.cc.setups.map (·.entry)).Nodup
  outbound : ∀ r o, s.outRecord? r = some o → ∃ e, s.entry? o.entry = some e
    ∧ (o.phase.newCell? = none → e.isInCall = true) ∧ (o.phase.newCell? ≠ none → e.isLeaving = true)
  outboundOnce : ∀ r q o p, s.outRecord? r = some o → s.outRecord? q = some p → o.entry = p.entry → r = q
  inbound : ∀ r o, s.inRecord? r = some o → ∃ e, s.entry? o.entry = some e ∧ e.isArriving = true
  inboundOnce : ∀ r q o p, s.inRecord? r = some o → s.inRecord? q = some p → o.entry = p.entry → r = q
  moves : ∀ m ∈ s.sp.moves, ∃ r o e c target mark newCell, s.outRecord? r = some o
    ∧ o.phase = .switching target mark newCell ∧ s.entry? o.entry = some e ∧ e.cell? = some c ∧ c.slot = m.slot
  movesOnce : (s.sp.moves.map (·.slot)).Nodup

/-- The configuration record holds a value of each field's range (R167, R168); the station number is any byte. -/
structure ConfigRecord.InRange (c : ConfigRecord) : Prop where
  stationNumber : c.stationNumber ≤ 255
  beaconCarrier : c.beaconCarrier ≤ 7
  scanFirstCarrier : c.scanFirstCarrier ≤ 7
  scanLastCarrier : c.scanLastCarrier ≤ 7
  scanFirstSlot : 1 ≤ c.scanFirstSlot ∧ c.scanFirstSlot ≤ 15
  scanLastSlot : 1 ≤ c.scanLastSlot ∧ c.scanLastSlot ≤ 15
  filterShift : 1 ≤ c.filterShift ∧ c.filterShift ≤ 4
  errorPenalty : c.errorPenalty ≤ 7
  triggerThreshold : c.triggerThreshold ≤ 1008
  hysteresis : c.hysteresis ≤ 255
  collapseCount : 2 ≤ c.collapseCount ∧ c.collapseCount ≤ 8
  dropCount : 10 ≤ c.dropCount ∧ c.dropCount ≤ 255
  handoverMargin : c.handoverMargin ≤ 255
  offerFloor : c.offerFloor ≤ 1008
  loadWeight : c.loadWeight ≤ 3
  cleanLimit : c.cleanLimit ≤ 1008
  offerWindow : 2 ≤ c.offerWindow ∧ c.offerWindow ≤ 15
  takeTimeout : 1 ≤ c.takeTimeout ∧ c.takeTimeout ≤ 15
  lead : 4 ≤ c.lead ∧ c.lead ≤ 64
  arrivalWindow : 1 ≤ c.arrivalWindow ∧ c.arrivalWindow ≤ 15
  fallbackWindow : 1 ≤ c.fallbackWindow ∧ c.fallbackWindow ≤ 31
  holdoff : 1 ≤ c.holdoff ∧ c.holdoff ≤ 255
  overheardLife : 8 ≤ c.overheardLife ∧ c.overheardLife ≤ 255
  idleExpiry : 1 ≤ c.idleExpiry ∧ c.idleExpiry ≤ 255
  pageTimeout : 8 ≤ c.pageTimeout ∧ c.pageTimeout ≤ 255
  findWindow : 2 ≤ c.findWindow ∧ c.findWindow ≤ 15
  quietPeriod : 16 ≤ c.quietPeriod ∧ c.quietPeriod ≤ 255
  yieldBurst : 1 ≤ c.yieldBurst ∧ c.yieldBurst ≤ 8
  yieldTime : 16 ≤ c.yieldTime ∧ c.yieldTime ≤ 1024
  drainLimit : 1 ≤ c.drainLimit ∧ c.drainLimit ≤ 255

/-- Every filtered level lies in 0 to 1008 and the configuration in its ranges (R37, R38, R53, R167). -/
structure State.LevelsInRange (s : State) : Prop where
  config : ConfigRecord.InRange s.sc.config
  map : ∀ c : Cell, s.interference c ≤ Config.worstCell
  overheard : ∀ o ∈ s.mu.overheard, o.level ≤ 1008
  table : ∀ i e, s.entry? i = some e → e.level ≤ 1008

/-- A cell that fits the fields a notice gives it. -/
def Cell.Fits (c : Cell) : Prop := c.slot < 16 ∧ c.carrier < 8

/-- The body of a notice fits its payload (12.1): an offer merit is at most 1008, a serving merit fits 10 bits. -/
def NoticeBody.Fits : NoticeBody → Prop
  | .take _ c => c.Fits
  | .decline _ _ => True
  | .claim _ => True
  | .transfer _ _ => True
  | .offer _ merit freeSlots => merit ≤ 1008 ∧ freeSlots < 16
  | .seek _ c merit => c.Fits ∧ merit < 1024
  | .here _ _ => True
  | .find _ => True

/-- A notice as a station may send it (12.1). -/
structure Notice.Fits (n : Notice) : Prop where
  sender : 1 ≤ n.sender ∧ n.sender ≤ 48
  dest : n.dest < 64
  body : n.body.Fits

/-- R34: the plan in force asks for this report as its beacon uplink, and has not had it. -/
def State.BeaconAsks (s : State) (b : Burst) : Prop :=
  s.planned b.slot = { role := .beacon b.carrier, reported := false }

/-- R34: the plan in force asks for this report as a listen, and has not had it. -/
def State.ListenAsks (s : State) (b : Burst) : Prop :=
  ∃ request, s.planned b.slot = { role := .listen b.carrier request, reported := false }

/-- R34, R35: the plan in force asks for this report as a bearer of a handset, and the slot plan still carries it. -/
def State.BearerAsks (s : State) (b : Burst) (h : Handset) : Prop :=
  s.planned b.slot = { role := .bearer b.carrier h, reported := false } ∧ s.stillCarries b.slot h = true

/-- R34, R35: the plan in force asks for this report as a held slot of a handset, and the slot plan still carries it. -/
def State.HeldAsks (s : State) (b : Burst) (h : Handset) : Prop :=
  s.planned b.slot = { role := .held b.carrier h, reported := false } ∧ s.stillCarries b.slot h = true

/-- What no strobe and no sync loss changes: the map, the allocation cursor, the numbers the part gives out, the
configuration, the host's transaction, the queue of commands. -/
def State.KeptByFrames (s t : State) : Prop :=
  t.mu.map = s.mu.map ∧ t.cc.allocCursor = s.cc.allocCursor ∧ t.cc.tagSeq = s.cc.tagSeq
    ∧ t.rc.findNumber = s.rc.findNumber ∧ t.he.seekNumber = s.he.seekNumber ∧ t.sc.config = s.sc.config
    ∧ t.hl.response = s.hl.response ∧ t.hl.shifted = s.hl.shifted ∧ t.pending = s.pending ∧ t.drawn = s.drawn

/-- The row that handles a notice of a kind (R124). -/
def rowOf : NoticeBody → Instr
  | .take _ _ => .takeReceived
  | .decline _ _ => .declineReceived
  | .claim _ => .claimReceived
  | .transfer _ _ => .transferReceived
  | .offer _ _ _ => .offerReceived
  | .seek _ _ _ => .seekReceived
  | .here _ _ => .hereReceived
  | .find _ => .findReceived

/-- R129: the order of a candidate list: O descending, ties by station number ascending, one place for each station. -/
def CandidatesOrdered (l : List Candidate) : Prop :=
  l.Pairwise fun a b => b.merit < a.merit ∨ (b.merit = a.merit ∧ a.station < b.station)

end Sys2Proof.Machine
end

