-- ==== Sys2Proof/Certificates/Slice0/Obligations.lean ====
section
/-! DEFINITION. What is claimed of the block. A command's own statement gives its next state whole, so that what it does not
name is unchanged. The shared operations that a next state names have statements of their own:
`SharedOperationsDoWhatTheyName` for the plain ones, and one beside its rules for each of the others. -/

section
open Sys2Proof Sys2Proof.Machine

/-! ### The machine -/

/-- A step takes the command at the front of the queue and runs it with the queue's rest; with no command waiting it changes
nothing. Both are the model's own choices (log 1, log 5). -/
def Obligations.StepRunsTheFrontCommand : Prop :=
  (∀ (c : Instr) (q : List Instr) (s : State), step (s.withPending (c :: q)) = exec c (s.withPending q))
  ∧ (∀ s : State, s.pending = [] → step s = .next s)

/-- R177: what a full reset leaves; the model's own two fields stay. The model's own reading: log 26. -/
def Obligations.FullResetLeavesResetValues : Prop :=
  ∀ s : State, ∃ t, exec .fullReset s = .next t
    ∧ t.tb = { mark := 0, known := false, frames := 0, watch := .disarmed }
    ∧ (∀ slot, t.slotEntry slot = .free) ∧ t.sp.changes = [] ∧ t.sp.cursor = 0 ∧ t.sp.beaconQ = [] ∧ t.sp.moves = []
    ∧ (∀ slot, t.planned slot = { role := .idle, reported := false })
    ∧ (∀ c, t.interference c = 1008) ∧ t.mu.overheard = [] ∧ t.mu.listens = []
    ∧ allFree t.rc.table ∧ allFree t.rc.finds ∧ t.rc.findNumber = 0
    ∧ t.cc.allocCursor = { slot := 1, carrier := 0 } ∧ t.cc.tagSeq = 0 ∧ t.cc.setups = [] ∧ t.cc.pages = []
    ∧ t.cc.rotation = none
    ∧ allFree t.he.outbound ∧ allFree t.he.inbound ∧ t.he.seekNumber = 0
    ∧ t.bus.queue = [] ∧ t.bus.mode = .opened ∧ t.bus.tx = .waiting ∧ t.bus.yieldCount = 0 ∧ t.bus.idle = 0 ∧ t.bus.rx = []
    ∧ t.sc.station = .unconfigured ∧ t.sc.config = ConfigRecord.fullReset ∧ t.sc.quiet = none ∧ t.sc.drain = none
    ∧ t.hl.response = { command := 0, code := .done, index := 0, body := .empty }
    ∧ t.hl.events = [] ∧ t.hl.lost = 0 ∧ (∀ k, t.hl.tallies.get k = 0)
    ∧ t.pending = s.pending ∧ t.drawn = s.drawn

/-! ### Strobes and marks -/

/-- R2: an ordinary strobe advances the mark and the frame count and restarts the watch. R4, R11: an epoch strobe with the mark
unknown makes it known and 0 and posts SYNC REGAINED; then comes the strobe report. -/
def Obligations.StrobesMoveTheMark : Prop :=
  (∀ (order : List StrobeWork) (s : State), exec (.ordinaryStrobe order) s = .next
    (State.strobeReport
      { s with tb := { mark := s.tb.mark + 1, known := s.tb.known, frames := s.tb.frames + 1, watch := .running } } order))
  ∧ (∀ (loss : List LossWork) (order : List StrobeWork) (s : State), s.tb.known = false →
    exec (.epochStrobe loss order) s = .next
      (State.strobeReport { s with
        tb := { mark := 0, known := true, frames := s.tb.frames + 1, watch := .running }
        hl := s.hl.post { kind := .syncRegained, handset := 0, other := 0, tag := 0, reason := .none, mark := 0, lost := 0 } }
        order))
  ∧ (∀ (order : List StrobeWork) (s : State), (s.strobeReport order).tb = s.tb)

/-- R5: an epoch strobe at mark 255 is an ordinary strobe in every respect. -/
def Obligations.EpochStrobeInStepIsOrdinary : Prop :=
  ∀ (loss : List LossWork) (order : List StrobeWork) (s : State), s.tb.known = true → s.tb.mark = 255 →
    exec (.epochStrobe loss order) s = exec (.ordinaryStrobe order) s

/-- R6, R11: a realignment posts SYNC LOST with the mark an ordinary strobe would have given, makes the mark unknown, hands on
the sync loss report, posts SYNC REGAINED with the mark known and 0, and hands on the strobe report; it ends with everything
that was held against the old mark released. The model's own reading: log 3. -/
def Obligations.RealignmentReleasesAndRegains : Prop :=
  ∀ (loss : List LossWork) (order : List StrobeWork) (s u : State), s.tb.known = true → s.tb.mark ≠ 255 →
    u = State.lossReport { s with
      tb := { s.tb with known := false }
      hl := s.hl.post { kind := .syncLost, handset := 0, other := 0, tag := 0, reason := .realigned, mark := s.tb.mark + 1
                        lost := 0 } } loss →
    ∃ t, exec (.epochStrobe loss order) s = .next t
      ∧ t = State.strobeReport { u with
          tb := { mark := 0, known := true, frames := s.tb.frames + 1, watch := .running }
          hl := u.hl.post { kind := .syncRegained, handset := 0, other := 0, tag := 0, reason := .none, mark := 0, lost := 0 } }
          order
      ∧ t.tb = { mark := 0, known := true, frames := s.tb.frames + 1, watch := .running }
      ∧ t.sp.changes = [] ∧ t.mu.listens = [] ∧ allFree t.he.outbound ∧ allFree t.he.inbound

/-- R7, R8, R11: the watch's expiry; a sync loss that finds nothing to release posts SYNC LOST, makes the mark unknown and
does nothing else. R9, R26, R68, R120, R144, R162: a sync loss report does each piece of its work once, in the order asked for,
and what each piece does. The model's own reading: log 3, log 6, log 16, log 21. -/
def Obligations.OverdueStrobeLosesTheMark : Prop :=
  (∀ (loss : List LossWork) (s : State), s.tb.watch = .running → s.tb.known = true →
    ∃ t, exec (.strobeOverdue loss) s = .next t
      ∧ t.tb = { s.tb with known := false, watch := .disarmed }
      ∧ t.sp.changes = [] ∧ t.mu.listens = [] ∧ allFree t.he.outbound ∧ allFree t.he.inbound
      ∧ (∀ q ∈ t.bus.queue, q.notice.bindsMark = true → q.inTransmission = true))
  ∧ (∀ (loss : List LossWork) (s : State), s.tb.watch = .running → s.tb.known = false →
    exec (.strobeOverdue loss) s = .next { s with tb := { s.tb with watch := .disarmed } })
  ∧ (∀ (loss : List LossWork) (s : State), s.tb.watch = .running → s.tb.known = true → s.sp.changes = [] → s.mu.listens = [] →
    allFree s.he.outbound → allFree s.he.inbound → (∀ q ∈ s.bus.queue, q.notice.bindsMark = false) →
    exec (.strobeOverdue loss) s = .next
      { s with
        tb := { s.tb with known := false, watch := .disarmed }
        hl := s.hl.post { kind := .syncLost, handset := 0, other := 0, tag := 0, reason := .overdue, mark := s.tb.mark
                          lost := 0 } })
  ∧ (∀ (loss : List LossWork) (s : State), s.tb.watch = .running → s.tb.known = true →
    exec (.strobeOverdue loss) s = .next (State.lossReport { s with
      tb := { s.tb with known := false, watch := .disarmed }
      hl := s.hl.post { kind := .syncLost, handset := 0, other := 0, tag := 0, reason := .overdue, mark := s.tb.mark
                        lost := 0 } } loss))
  ∧ (∀ (loss : List LossWork) (s : State), s.tb.watch = .disarmed → exec (.strobeOverdue loss) s = .next s)
  ∧ (∀ (loss : List LossWork) (s : State),
    (loss.Nodup → (∀ w, w ∈ loss) → s.lossReport loss = loss.foldl doLossWork s)
    ∧ ∃ works : List LossWork, works.Nodup ∧ (∀ w, w ∈ works) ∧ s.lossReport loss = works.foldl doLossWork s)
  ∧ (∀ s : State, doLossWork s .slotPlanner = { s with sp := { s.sp with changes := [] } }
    ∧ doLossWork s .measurement = { s with mu := { s.mu with listens := [] } })
  ∧ (∀ (r : Fin 4) (s : State), s.outRecord? r.val = none → doLossWork s (.outbound r) = s)
  ∧ (∀ (r : Fin 4) (o : OutRecord) (e : Entry) (s : State), s.outRecord? r.val = some o → s.entry? o.entry = some e →
    (∀ m l, o.phase = .seeking m l → doLossWork s (.outbound r) =
      (((s.post .handoverFailed e.handset 0 e.tag .noSync).count .handoverFailures).setEntry o.entry
        (some { e with holdoff := s.sc.config.holdoff })).setOut r.val none)
    ∧ (∀ l target m n, o.phase = .asking l target m n → doLossWork s (.outbound r) =
      (((s.post .handoverFailed e.handset target e.tag .noSync).count .handoverFailures).setEntry o.entry
        (some { e with holdoff := s.sc.config.holdoff })).setOut r.val none)
    ∧ (∀ target m nc c tag k, o.phase = .switching target m nc → e.phase = .leaving c tag k → doLossWork s (.outbound r) =
      (((State.post { s with sp := { s.sp with moves := s.sp.moves.filter fun x => x.slot != c.slot } } .handoverFailed
        e.handset target tag .noSync).count .handoverFailures).setEntry o.entry
        (some { e with phase := .inCall c tag k, holdoff := s.sc.config.holdoff })).setOut r.val none)
    ∧ (∀ target m nc n c tag k, o.phase = .fallback target m nc n → e.phase = .leaving c tag k →
      doLossWork s (.outbound r) =
        (((((s.freeSlot c.slot).post .callLost e.handset target tag .noSync).count .callsLost).freeEntry o.entry).setOut
          r.val none).drainTest))
  ∧ (∀ (r : Fin 4) (s : State), s.inRecord? r.val = none → doLossWork s (.inbound r) = s)
  ∧ (∀ (r : Fin 4) (o : InRecord) (e : Entry) (c : Cell) (tag : Tag) (s : State), s.inRecord? r.val = some o →
    s.entry? o.entry = some e → e.phase = .arriving c tag → doLossWork s (.inbound r) =
      (((((s.freeSlot c.slot).freeEntry o.entry).post .arrivalMissed o.handset o.source tag .noSync).count
        .arrivalsMissed).setIn r.val none).drainTest)
  ∧ (∀ n : Notice, n.bindsMark = true ↔ (∃ k c, n.body = .take k c) ∨ (∃ k t, n.body = .transfer k t)
    ∨ (∃ k o f, n.body = .offer k o f) ∨ ∃ k c m, n.body = .seek k c m)
  ∧ (∀ (q : QueuedNotice) (w : NoticeWord), condemn .waiting q = q ∧ condemn (.sending w) q = q
    ∧ condemn (.contending w) q = { q with condemned := q.condemned || (q.notice.bindsMark && q.inTransmission) })
  ∧ (∀ s t : State, t = { s with bus := { s.bus with
      queue := (s.bus.queue.filter fun q => !q.notice.bindsMark || q.inTransmission).map (condemn s.bus.tx) } } →
    ((∀ q ∈ s.bus.queue, q.notice.bindsMark = true → q.inTransmission = true) → doLossWork s .bus = t)
    ∧ ((∃ q ∈ s.bus.queue, q.notice.bindsMark = true ∧ q.inTransmission = false) → doLossWork s .bus = t.occupancyFell))

/-- What strobes and sync losses never change. -/
def Obligations.FramesKeepWhatTheyDoNotOwn : Prop :=
  (∀ order s t, exec (.ordinaryStrobe order) s = .next t → s.KeptByFrames t)
  ∧ (∀ loss order s t, exec (.epochStrobe loss order) s = .next t → s.KeptByFrames t)
  ∧ (∀ loss s t, exec (.strobeOverdue loss) s = .next t → s.KeptByFrames t)

/-- R15, R16: serial comparison, and the order of stamps. -/
def Obligations.SerialAndStampOrder : Prop :=
  (∀ a b : BitVec 8,
    (serialNewer a b = true ↔ 1 ≤ (a - b).toNat ∧ (a - b).toNat ≤ 127)
    ∧ (serialOlder a b = true ↔ 128 ≤ (a - b).toNat)
    ∧ ((a - b).toNat = 0 ↔ a = b)
    ∧ (serialNewer a b = true → serialOlder b a = true)
    ∧ (serialOlder a b = true → (serialNewer b a = true ↔ (a - b).toNat ≠ 128)))
  ∧ (∀ s t : Stamp, s.newer t = true ↔
    serialNewer s.epoch t.epoch = true ∨ (s.epoch = t.epoch ∧ serialNewer s.hop t.hop = true))
  ∧ (∀ s t : Stamp, s.older t = true ↔
    serialOlder s.epoch t.epoch = true ∨ (s.epoch = t.epoch ∧ serialOlder s.hop t.hop = true))
  ∧ (∀ s t : Stamp, s.older t = true ∧ t.older s = true ↔
    (s.epoch - t.epoch).toNat = 128 ∨ (s.epoch = t.epoch ∧ (s.hop - t.hop).toNat = 128))
  ∧ (∀ s t : Stamp, s = t ↔ s.epoch = t.epoch ∧ s.hop = t.hop)
  ∧ (∀ s : Stamp, s.nextHop = { epoch := s.epoch, hop := s.hop + 1 } ∧ s.nextHop.newer s = true)

/-- R10, R17: the mark distance, and that a mark n frames ahead is due at the n-th strobe. -/
def Obligations.MarkDistance : Prop :=
  (∀ (tb : TimeBase) (m : Mark), tb.known = true → tb.distance? m = some ((m.toNat + 256 - tb.mark.toNat) % 256))
  ∧ (∀ (tb : TimeBase) (m : Mark) (lo hi : Nat), tb.known = false → tb.within m lo hi = false)
  ∧ (∀ (tb : TimeBase) (m : Mark), tb.due m = true ↔ tb.known = true ∧ m = tb.mark)
  ∧ (∀ (tb : TimeBase) (n : Nat), tb.known = true → n < 256 → tb.distance? (tb.ahead n) = some n)
  ∧ (∀ (tb : TimeBase) (m : Mark) (lo hi : Nat), tb.known = true →
      (tb.within m lo hi = true ↔ lo ≤ (m.toNat + 256 - tb.mark.toNat) % 256 ∧ (m.toNat + 256 - tb.mark.toNat) % 256 ≤ hi))

/-! ### Shared operations -/

/-- What the plain shared operations do that next states name: they read and write the tables and lists they name. R61: a
handset becomes held; R62: a handset is fresh; R72: an entry is freed; R76, R82, R103, R143, R160: what goes with a call that ends here; R95, R101, R102:
a page fails; R106: a call is lost; R127, R155: records by their entry. That a free record is the lowest is log 15. -/
def Obligations.SharedOperationsDoWhatTheyName : Prop :=
  (∀ (s : State) (kind : EventKind) (h : Handset) (other : Nat) (tag : Tag) (reason : Reason),
    s.post kind h other tag reason = { s with
      hl := s.hl.post { kind := kind, handset := h, other := other, tag := tag, reason := reason, mark := s.tb.mark
                        lost := 0 } })
  ∧ (∀ (s : State) (k : Tally), s.count k = { s with hl := { s.hl with tallies := s.hl.tallies.add k 1 } })
  ∧ (∀ (s : State) (i : Nat) (e : Option Entry), (i < 64 → (s.setEntry i e).entry? i = e)
    ∧ (∀ j, j ≠ i → (s.setEntry i e).entry? j = s.entry? j)
    ∧ s.setEntry i e = { s with rc := { s.rc with table := (s.setEntry i e).rc.table } })
  ∧ (∀ (s : State) (r : Nat) (o : Option OutRecord), (r < 4 → (s.setOut r o).outRecord? r = o)
    ∧ (∀ q, q ≠ r → (s.setOut r o).outRecord? q = s.outRecord? q)
    ∧ s.setOut r o = { s with he := { s.he with outbound := (s.setOut r o).he.outbound } })
  ∧ (∀ (s : State) (r : Nat) (o : Option InRecord), (r < 4 → (s.setIn r o).inRecord? r = o)
    ∧ (∀ q, q ≠ r → (s.setIn r o).inRecord? q = s.inRecord? q)
    ∧ s.setIn r o = { s with he := { s.he with inbound := (s.setIn r o).he.inbound } })
  ∧ (∀ (s : State) (r : Nat) (f : Option FindRecord), (r < 4 → (s.setFind r f).findRecord? r = f)
    ∧ (∀ q, q ≠ r → (s.setFind r f).findRecord? q = s.findRecord? q)
    ∧ s.setFind r f = { s with rc := { s.rc with finds := (s.setFind r f).rc.finds } })
  ∧ (∀ (s : State) (slot : Nat) (e : SlotEntry), (slot < 16 → (s.writeSlot slot e).slotEntry slot = e)
    ∧ (∀ k, k ≠ slot → (s.writeSlot slot e).slotEntry k = s.slotEntry k)
    ∧ (∀ m, m ∈ (s.writeSlot slot e).sp.moves ↔
        m ∈ s.sp.moves ∧ (m.slot = slot → ∃ carrier, e = .bearer carrier m.handset))
    ∧ s.writeSlot slot e = { s with sp := { s.sp with
        plan := (s.writeSlot slot e).sp.plan, moves := (s.writeSlot slot e).sp.moves } })
  ∧ (∀ (s : State) (h : Handset),
    (∀ i e, s.find? h = some (i, e) → s.entry? i = some e ∧ e.handset = h
      ∧ ∀ j f, j < i → s.entry? j = some f → f.handset ≠ h)
    ∧ (s.find? h = none ↔ ∀ i e, s.entry? i = some e → e.handset ≠ h)
    ∧ (s.isHeld h = true ↔ s.find? h ≠ none))
  ∧ (∀ (s : State) (i : Nat),
    (∀ r, s.outOf i = some r → (∃ o, s.outRecord? r = some o ∧ o.entry = i)
      ∧ ∀ q o, q < r → s.outRecord? q = some o → o.entry ≠ i)
    ∧ (s.outOf i = none ↔ ∀ r o, s.outRecord? r = some o → o.entry ≠ i)
    ∧ (∀ r, s.inOf i = some r → (∃ o, s.inRecord? r = some o ∧ o.entry = i)
      ∧ ∀ q o, q < r → s.inRecord? q = some o → o.entry ≠ i)
    ∧ (s.inOf i = none ↔ ∀ r o, s.inRecord? r = some o → o.entry ≠ i))
  ∧ (∀ (s : State) (h : Handset) (seek : BitVec 8) (r : Nat) (o : OutRecord), s.outFor? h seek = some (r, o) ↔
      ∃ i e, s.find? h = some (i, e) ∧ s.outOf i = some r ∧ s.outRecord? r = some o ∧ o.seek = seek)
  ∧ (∀ (s : State) (h : Handset),
    (∀ r, s.findFor h = some r → ∃ f, s.findRecord? r = some f ∧ f.handset = h)
    ∧ (s.findFor h = none ↔ ∀ r f, s.findRecord? r = some f → f.handset ≠ h))
  ∧ (∀ (s : State) (h : Handset),
    (∀ p, s.page? h = some p → p ∈ s.cc.pages ∧ p.handset = h)
    ∧ (s.page? h = none ↔ ∀ p ∈ s.cc.pages, p.handset ≠ h)
    ∧ (∀ o, s.overheard? h = some o → o ∈ s.mu.overheard ∧ o.handset = h)
    ∧ (s.overheard? h = none ↔ ∀ o ∈ s.mu.overheard, o.handset ≠ h))
  ∧ (∀ (s : State) (h : Handset), s.fresh h = true ↔ ∃ o, s.overheard? h = some o ∧ o.age ≤ 8)
  ∧ (∀ (s : State) (i : Nat), (∀ r, s.setup? i = some r → r ∈ s.cc.setups ∧ r.entry = i)
    ∧ (s.setup? i = none ↔ ∀ r ∈ s.cc.setups, r.entry ≠ i))
  ∧ (∀ s : State, s.committed = s.sp.plan.toList.countP fun e => e.owner? != none)
  ∧ (∀ (s : State) (k : Nat),
    (s.freeIndex = some k ↔ k < 64 ∧ s.entry? k = none ∧ ∀ j, j < k → s.entry? j ≠ none)
    ∧ (s.freeOut = some k ↔ k < 4 ∧ s.outRecord? k = none ∧ ∀ j, j < k → s.outRecord? j ≠ none)
    ∧ (s.freeIn = some k ↔ k < 4 ∧ s.inRecord? k = none ∧ ∀ j, j < k → s.inRecord? j ≠ none)
    ∧ (s.freeFind = some k ↔ k < 4 ∧ s.findRecord? k = none ∧ ∀ j, j < k → s.findRecord? j ≠ none))
  ∧ (∀ (s : State) (i : Nat), (s.entry? i = none → s.freeEntry i = s)
    ∧ (∀ e, s.entry? i = some e → s.freeEntry i = (s.removePage e.handset).setEntry i none))
  ∧ (∀ (s : State) (i : Nat) (e : Entry),
    (∀ c, e.cell? = some c → s.releaseCall i e = (((s.freeSlot c.slot).dropSetup i).dropOut i).dropIn i)
    ∧ (e.cell? = none → s.releaseCall i e = ((s.dropSetup i).dropOut i).dropIn i))
  ∧ (∀ (s : State) (i : Nat),
    s.dropSetup i = { s with cc := { s.cc with setups := s.cc.setups.filter fun r => r.entry != i } }
    ∧ (s.outOf i = none → s.dropOut i = s) ∧ (∀ r, s.outOf i = some r → s.dropOut i = s.setOut r none)
    ∧ (s.inOf i = none → s.dropIn i = s) ∧ (∀ r, s.inOf i = some r → s.dropIn i = s.setIn r none))
  ∧ (∀ (s : State) (e : Entry) (other : Nat) (reason : Reason),
      s.callLost e other reason = (s.post .callLost e.handset other e.tag reason).count .callsLost)
  ∧ (∀ (s : State) (h : Handset), s.becomesHeld h = { s with mu := { s.mu with
      overheard := s.mu.overheard.filter fun o => o.handset != h, listens := s.mu.listens.filter fun r => r.handset != h } })
  ∧ (∀ (s : State) (h : Handset) (reason : Reason), (s.page? h = none → s.pageFails h reason = s)
    ∧ (∀ p, s.page? h = some p → s.pageFails h reason = (s.removePage h).post .pageFailed h 0 p.tag reason))
  ∧ (∀ (s : State) (c : Cell), s.moveCursor c = { s with cc := { s.cc with allocCursor := c } })
  ∧ (∀ s : State, s.dropReceived = { s with bus := { s.bus with rx := s.bus.rx.tail } })

/-! ### Signal arithmetic -/

/-- R37: the filter step, and the shift that each filtered quantity takes its steps with. -/
def Obligations.FilterStepNeverOvershoots : Prop :=
  (∀ f l w : Nat, f ≤ 1008 → l ≤ 63 → 1 ≤ w → w ≤ 4 →
    (filterStep f l w : Int) = f + (16 * (l : Int) - f + 2 ^ (w - 1)) / 2 ^ w
    ∧ (f ≤ 16 * l → f ≤ filterStep f l w ∧ filterStep f l w ≤ 16 * l)
    ∧ (16 * l ≤ f → 16 * l ≤ filterStep f l w ∧ filterStep f l w ≤ f)
    ∧ filterStep f l w ≤ 1008
    ∧ (filterStep f l w = f ↔ -(2 ^ (w - 1) : Int) ≤ 16 * (l : Int) - f ∧ 16 * (l : Int) - f ≤ 2 ^ (w - 1) - 1))
  ∧ (∀ (s : State) (i : Nat) (e : Entry) (r : LinkReport), s.entry? i = some e →
    ((s.measure i r).entry? i).map (·.level) = some (filterStep e.level r.level s.sc.config.filterShift))
  ∧ (∀ (s : State) (h : Handset) (l : Nat) (c : Cell) (o : Overheard), s.overheard? h = some o →
    (s.heardEntry h l c).level = filterStep o.level l s.sc.config.filterShift)
  ∧ (∀ (s : State) (c : Cell) (l : Nat), 1 ≤ c.slot → c.slot ≤ 15 → c.carrier ≤ 7 →
    (s.feedMap c l).interference c = filterStep (s.interference c) l 2)

/-- R41 to R44: the ring, the miss run and the two merits. A report enters a fail exactly when it is without sync or its check
failed; E counts the fails of the ring. -/
def Obligations.MeritsAndOutcomes : Prop :=
  (∀ (e : Entry) (c : ConfigRecord), e.merit c = e.level - 16 * c.errorPenalty * e.errors)
  ∧ (∀ (s : State) (o : Overheard), s.offerMeritOf o = o.level - 16 * s.sc.config.loadWeight * s.committed)
  ∧ (∀ e : Entry, e.errors ≤ 8)
  ∧ (∀ (k : Link) (check : Bool), (k.enter false check).missRun = min 255 (k.missRun + 1))
  ∧ (∀ (k : Link) (check : Bool), (k.enter true check).missRun = 0)
  ∧ (∀ (r : Ring) (fail : Bool), r.position < 8 →
      (r.enter fail).position = (r.position + 1) % 8 ∧ (r.enter fail).fails[r.position]? = some fail
      ∧ ∀ k, k ≠ r.position → (r.enter fail).fails[k]? = r.fails[k]?)
  ∧ (∀ (k : Link) (sync check : Bool),
      (k.enter sync check).ring = k.ring.enter (decide (sync = false ∨ check = false)))
  ∧ (∀ r : Ring, r.errors = (List.range 8).countP fun k => r.fails[k]? == some true)
  ∧ (∀ e : Entry, (∀ k, e.link? = some k → e.errors = k.ring.errors) ∧ (e.link? = none → e.errors = 0))
  ∧ (∀ (e : Entry) (c : Cell) (tag : Tag) (k : Link) (sync check : Bool),
      (e.phase = .setup c tag k → e.enterOutcome sync check = { e with phase := .setup c tag (k.enter sync check) })
      ∧ (e.phase = .inCall c tag k → e.enterOutcome sync check = { e with phase := .inCall c tag (k.enter sync check) })
      ∧ (e.phase = .leaving c tag k → e.enterOutcome sync check = { e with phase := .leaving c tag (k.enter sync check) })
      ∧ (e.link? = none → e.enterOutcome sync check = e))

/-! ### The slot plan -/

/-- R19: a commit request; R20: a restore request; R21: a free request. -/
def Obligations.DirectWritesOfTheSlotPlan : Prop :=
  (∀ (s : State) (slot : Nat),
    (¬(1 ≤ slot ∧ slot ≤ 15) → s.commitRefusal? slot = some .slotZero)
    ∧ (1 ≤ slot → slot ≤ 15 → s.serving = false → s.commitRefusal? slot = some .notServing)
    ∧ (1 ≤ slot → slot ≤ 15 → s.serving = true → s.slotEntry slot ≠ .free → s.commitRefusal? slot = some .notFree)
    ∧ (1 ≤ slot → slot ≤ 15 → s.serving = true → s.slotEntry slot = .free → (∃ c ∈ s.sp.changes, c.slot = slot) →
        s.commitRefusal? slot = some .pending)
    ∧ (1 ≤ slot → slot ≤ 15 → s.serving = true → s.slotEntry slot = .free → (∀ c ∈ s.sp.changes, c.slot ≠ slot) →
        s.commitRefusal? slot = none ∧ ∀ e, (s.commit slot e).slotEntry slot = e ∧ s.commit slot e = s.writeSlot slot e)
    ∧ (s.commitRefusal? slot ≠ none → ∀ e, s.commit slot e = s))
  ∧ (∀ (s : State) (slot : Nat) (h : Handset),
    (∀ c, s.slotEntry slot = .held c h →
      s.restorable slot h = true ∧ (s.restoreSlot slot h).slotEntry slot = .bearer c h
      ∧ (∀ k, k ≠ slot → (s.restoreSlot slot h).slotEntry k = s.slotEntry k))
    ∧ ((∀ c, s.slotEntry slot ≠ .held c h) → s.restorable slot h = false ∧ s.restoreSlot slot h = s)
    ∧ (s.restoreSlot slot h).sp.changes = s.sp.changes)
  ∧ (∀ s : State, s.freeSlot 0 = s)
  ∧ (∀ (s : State) (slot : Nat), slot ≠ 0 →
      (s.freeSlot slot).slotEntry slot = .free
      ∧ (∀ k, k ≠ slot → (s.freeSlot slot).slotEntry k = s.slotEntry k)
      ∧ (s.freeSlot slot).sp.changes = s.sp.changes.filter (fun c => c.slot != slot)
      ∧ (s.freeSlot slot).sp.moves = s.sp.moves.filter (fun m => m.slot != slot)
      ∧ s.freeSlot slot = { s with sp := { s.sp with
          plan := (s.freeSlot slot).sp.plan, changes := (s.freeSlot slot).sp.changes, moves := (s.freeSlot slot).sp.moves } })

/-- R23: the checks of a plan change request, in order; R24: where an admitted one goes. R25: PLAN_CHANGE_DUE. R33: a standing
MOVE ends exactly when a due entry of its slot is not BEARER for its handset. The model's own reading: log 1. -/
def Obligations.PlanChangesAreAdmittedAndApplied : Prop :=
  (∀ s : State, ∃ t, exec .planChangeDue s = .next t
    ∧ t = { s with sp := { s.sp with
        plan := t.sp.plan, moves := t.sp.moves, changes := s.sp.changes.filter fun c => !s.tb.due c.mark } }
    ∧ (∀ slot, (∀ c ∈ s.sp.changes, s.tb.due c.mark = true → c.slot ≠ slot) → t.slotEntry slot = s.slotEntry slot)
    ∧ (∀ c ∈ s.sp.changes, s.tb.due c.mark = true → c.slot < 16 →
        (∀ d ∈ s.sp.changes, s.tb.due d.mark = true → d.slot = c.slot → d.entry = c.entry) →
        t.slotEntry c.slot = c.entry)
    ∧ (∀ m, m ∈ t.sp.moves ↔ m ∈ s.sp.moves ∧ ∀ c ∈ s.sp.changes, s.tb.due c.mark = true → c.slot = m.slot →
        ∃ carrier, c.entry = .bearer carrier m.handset))
  ∧ (∀ (s : State) (c : PlanChange),
    (¬(1 ≤ c.slot ∧ c.slot ≤ 15) → s.changeRefusal? c = some .slotZero)
    ∧ (1 ≤ c.slot → c.slot ≤ 15 → s.tb.known = false → s.changeRefusal? c = some .noSync)
    ∧ (1 ≤ c.slot → c.slot ≤ 15 → s.tb.known = true → s.tb.within c.mark 1 128 = false →
        s.changeRefusal? c = some .outOfRange)
    ∧ (1 ≤ c.slot → c.slot ≤ 15 → s.tb.known = true → s.tb.within c.mark 1 128 = true →
        (∀ h, (s.slotEntry c.slot).owner? = some h → c.entry.owner? ≠ some h) → s.changeRefusal? c = some .notOwner)
    ∧ (∀ h, 1 ≤ c.slot → c.slot ≤ 15 → s.tb.known = true → s.tb.within c.mark 1 128 = true →
        (s.slotEntry c.slot).owner? = some h → c.entry.owner? = some h →
        ((∃ d ∈ s.sp.changes, d.slot = c.slot ∧ d.mark = c.mark) ∨ s.sp.changes.length < 8 → s.changeRefusal? c = none)
        ∧ ((∀ d ∈ s.sp.changes, ¬(d.slot = c.slot ∧ d.mark = c.mark)) → 8 ≤ s.sp.changes.length →
            s.changeRefusal? c = some .listFull)))
  ∧ (∀ (carrier : Nat) (h : Handset), (SlotEntry.bearer carrier h).owner? = some h
    ∧ (SlotEntry.reserved carrier h).owner? = some h ∧ (SlotEntry.held carrier h).owner? = some h
    ∧ SlotEntry.free.owner? = none ∧ SlotEntry.beacon.owner? = none)
  ∧ (∀ (s : State) (c : PlanChange), (s.changeRefusal? c ≠ none → s.requestChange c = s)
    ∧ (s.changeRefusal? c = none → s.requestChange c = s.admitChange c))
  ∧ (∀ (s : State) (c : PlanChange), (∀ d ∈ s.sp.changes, ¬(d.slot = c.slot ∧ d.mark = c.mark)) →
      s.admitChange c = { s with sp := { s.sp with changes := s.sp.changes ++ [c] } })
  ∧ (∀ (s : State) (c d : PlanChange) (before after : List PlanChange), s.sp.changes = before ++ d :: after →
      d.slot = c.slot → d.mark = c.mark → (∀ x ∈ before ++ after, ¬(x.slot = c.slot ∧ x.mark = c.mark)) →
      s.admitChange c = { s with sp := { s.sp with changes := before ++ c :: after } })
  ∧ (∀ (c : Cell) (h : Handset) (m : Mark),
      heldChange c h m = { slot := c.slot, entry := .held c.carrier h, mark := m, requester := .servingSide })

/-- R27 to R30, R32, R33, R100: the frame plan of a strobe, the messages sent with it, the arbiter's choice, the page rotation
and the scan cursor. -/
def Obligations.FramePlanFollowsTheSlotPlan : Prop :=
  (∀ (s : State) (slot : Nat), slot < 16 →
    s.buildPlan.planned slot =
      { role := match s.slotEntry slot with
          | .beacon => .beacon s.sc.config.beaconCarrier
          | .bearer c h => .bearer c h
          | .held c h => .held c h
          | .reserved _ _ => .idle
          | .free => s.freeRole slot
        reported := false }
    ∧ s.freeRole 0 = .idle
    ∧ (∀ r, slot ≠ 0 → s.mu.listens.find? (fun q => q.cell.slot == slot) = some r →
        s.freeRole slot = .listen r.cell.carrier (some r))
    ∧ (slot ≠ 0 → s.mu.listens.find? (fun q => q.cell.slot == slot) = none → s.joined = true →
        s.sc.config.scanFirstSlot ≤ slot → slot ≤ s.sc.config.scanLastSlot →
        s.freeRole slot = .listen (scanCarrier s.sc.config s.sp.cursor slot) none)
    ∧ (s.mu.listens.find? (fun q => q.cell.slot == slot) = none →
        (s.joined = false ∨ slot < s.sc.config.scanFirstSlot ∨ s.sc.config.scanLastSlot < slot) → s.freeRole slot = .idle))
  ∧ (∀ (c : ConfigRecord) (k slot : Nat),
    (c.scanOrder = .aligned → scanCarrier c k slot = k)
    ∧ (c.scanOrder = .staggered → c.scanFirstCarrier ≤ c.scanLastCarrier → (scanCarrier c k slot : Int) =
        c.scanFirstCarrier
          + ((k : Int) - c.scanFirstCarrier + slot - c.scanFirstSlot) % ((c.scanLastCarrier : Int) - c.scanFirstCarrier + 1)))
  ∧ (∀ s : State, s.buildPlan = { s with
      sp := { s.sp with
        inForce := s.buildPlan.sp.inForce
        sent := s.planMessages
        beaconQ := if s.slotEntry 0 = .beacon then s.sp.beaconQ.tail else s.sp.beaconQ
        cursor := if s.sp.cursor < s.sc.config.scanLastCarrier then s.sp.cursor + 1 else s.sc.config.scanFirstCarrier }
      cc := { s.cc with
        rotation := if s.slotEntry 0 = .beacon ∧ s.sp.beaconQ = [] then s.cc.rotation.bind (followingPage s.cc.pages)
          else s.cc.rotation } })
  ∧ (∀ s : State, s.planMessages =
      (if s.slotEntry 0 = .beacon then
        { slot := 0, message := .header s.sc.config.stationNumber s.tb.mark s.tb.known s.beaconFlag } ::
          (match s.sp.beaconQ with
            | m :: _ => [{ slot := 0, message := m }]
            | [] =>
              match s.cc.rotation.bind s.page? with
              | some p => [{ slot := 0, message := .page p.handset p.tag }]
              | none => [])
        else [])
      ++ (List.range 16).flatMap fun slot =>
          match s.moveFor slot with
          | some m => [{ slot := slot, message := .move m.handset m.target m.newCell m.switchMark }]
          | none => [])
  ∧ (∀ (s : State) (slot : Nat),
    (∀ m, s.moveFor slot = some m → m ∈ s.sp.moves ∧ m.slot = slot ∧ ∃ c, s.slotEntry slot = .bearer c m.handset)
    ∧ (s.moveFor slot = none → ∀ m ∈ s.sp.moves, m.slot = slot → ∀ c, s.slotEntry slot ≠ .bearer c m.handset))
  ∧ (∀ s : State,
    (s.sc.station = .draining → s.beaconFlag = .leaving)
    ∧ (s.sc.station ≠ .draining → (∃ i, i < 64 ∧ s.entry? i = none) → s.beaconFlag = .vacant)
    ∧ (s.sc.station ≠ .draining → (∀ i, i < 64 → s.entry? i ≠ none) → s.beaconFlag = .full))
  ∧ (∀ (before after : List PageRecord) (p : PageRecord), (∀ x ∈ before, x.handset ≠ p.handset) →
    (∀ q, followingPage (before ++ p :: q :: after) p.handset = some q.handset)
    ∧ followingPage (before ++ [p]) p.handset = (before ++ [p]).head?.map (·.handset))
  ∧ (∀ (pages : List PageRecord) (h : Handset), (∀ x ∈ pages, x.handset ≠ h) → followingPage pages h = none)

/-! ### Expiries and due marks, each with the state that makes it due -/

/-- R60: OVERHEARD_EXPIRY; R67: TARGETED_LISTEN_DUE; R46: HOLDOFF_EXPIRY. The model's own reading: log 1. -/
def Obligations.ListsAndHoldoffsExpire : Prop :=
  (∀ (h : Handset) (o : Overheard) (s : State), s.overheard? h = some o → s.sc.config.overheardLife ≤ o.age + 1 →
    exec (.overheardExpiry h) s = .next
      { s with mu := { s.mu with overheard := s.mu.overheard.filter fun x => x.handset != h } })
  ∧ (∀ s : State, s.tb.known = true →
    exec .targetedListenDue s = .next
      { s with mu := { s.mu with listens := s.mu.listens.filter fun r => r.replyBy != s.tb.mark } })
  ∧ (∀ s : State, s.tb.known = false → exec .targetedListenDue s = .next s)
  ∧ (∀ (i : Fin 64) (e : Entry) (s : State), s.entry? i.val = some e → e.holdoff = 1 →
    ((e.isInCall = true ∧ e.merit s.sc.config < s.sc.config.triggerThreshold) →
      exec (.holdoffExpiry i) s = .next (s.setEntry i.val (some { e with holdoff := 0, armed := true })))
    ∧ (¬(e.isInCall = true ∧ e.merit s.sc.config < s.sc.config.triggerThreshold) →
      exec (.holdoffExpiry i) s = .next (s.setEntry i.val (some { e with holdoff := 0 }))))
  ∧ (∀ (h : Handset) (s : State), (∀ o, s.overheard? h = some o → o.age + 1 < s.sc.config.overheardLife) →
      exec (.overheardExpiry h) s = .next s)
  ∧ (∀ (i : Fin 64) (s : State), (∀ e, s.entry? i.val = some e → e.holdoff ≠ 1) → exec (.holdoffExpiry i) s = .next s)

/-- R80: IDLE_EXPIRY; R102: PAGE_TIMEOUT; R98: SETUP_COUNTER_EXPIRY; R88: FIND_EXPIRY; R99: how a page record leaves the page
list. The model's own reading: log 1, log 16. -/
def Obligations.IdlePageAndSetupExpiry : Prop :=
  (∀ (i : Fin 64) (e : Entry) (n : Nat) (s : State), s.entry? i.val = some e → e.phase = .idle n →
    s.sc.config.idleExpiry ≤ n + 1 →
    exec (.idleExpiry i) s = .next (((s.removePage e.handset).setEntry i.val none).post .detached e.handset 0 0 .expired))
  ∧ (∀ (h : Handset) (p : PageRecord) (s : State), s.page? h = some p → p.remaining ≤ 1 →
    exec (.pageTimeout h) s = .next ((s.removePage h).post .pageFailed h 0 p.tag .timeout))
  ∧ (∀ (i : Fin 64) (e : Entry) (r : SetupRecord) (c : Cell) (tag : Tag) (k : Link) (s : State),
    s.setup? i.val = some r → r.counter ≤ 1 → s.entry? i.val = some e → e.phase = .setup c tag k →
    exec (.setupCounterExpiry i) s = .next
      (((((s.freeSlot c.slot).setEntry i.val (some { e with phase := .idle 0 })).dropSetup i.val).post .callFailed e.handset 0
        tag (if r.discarded then .queue else .timeout)).drainTest))
  ∧ (∀ (r : Fin 4) (f : FindRecord) (s : State), s.findRecord? r.val = some f → f.remaining ≤ 1 →
    (∀ i e, s.find? f.handset = some (i, e) →
      exec (.findExpiry r) s = .next ((s.setFind r.val none).post .located f.handset s.sc.config.stationNumber
        (e.stamp.epoch ++ e.stamp.hop) (if e.engaged then .foundInCall else .foundIdle)))
    ∧ (∀ a, s.find? f.handset = none → f.answer = some a →
      exec (.findExpiry r) s = .next ((s.setFind r.val none).post .located f.handset a.station
        (a.stamp.epoch ++ a.stamp.hop) (if a.inCall then .foundInCall else .foundIdle)))
    ∧ (s.find? f.handset = none → f.answer = none →
      exec (.findExpiry r) s = .next ((s.setFind r.val none).post .notFound f.handset 0 0 .none)))
  ∧ (∀ (h : Handset) (s : State),
    ((∀ p ∈ s.cc.pages, p.handset ≠ h) → s.removePage h = s)
    ∧ (∀ before p after, s.cc.pages = before ++ p :: after → (∀ q ∈ before, q.handset ≠ h) → p.handset = h →
        s.removePage h = { s with cc := { s.cc with
          pages := before ++ after
          rotation := if s.cc.rotation = some h then
              match after.head?, before.head? with
              | some q, _ => some q.handset
              | none, some q => some q.handset
              | none, none => none
            else s.cc.rotation } }))
  ∧ (∀ (i : Fin 64) (s : State),
    ((∀ e n, s.entry? i.val = some e → e.phase = .idle n → n + 1 < s.sc.config.idleExpiry) →
      exec (.idleExpiry i) s = .next s)
    ∧ ((∀ r, s.setup? i.val = some r → 2 ≤ r.counter) → exec (.setupCounterExpiry i) s = .next s))
  ∧ (∀ (h : Handset) (s : State), (∀ p, s.page? h = some p → 2 ≤ p.remaining) → exec (.pageTimeout h) s = .next s)
  ∧ (∀ (r : Fin 4) (s : State), (∀ f, s.findRecord? r.val = some f → 2 ≤ f.remaining) → exec (.findExpiry r) s = .next s)

/-- R9, R13, R14, R171: a strobe of either kind does every piece of its report's work once, in the order asked for, after the
holdoffs; the pages are told apart by their handsets. A piece whose counter is not at its end counts one frame or one slow tick,
and one at its end does what its own row does. That the rows for expiries and due marks share their work with the strobe is the
model's own choice (log 1, log 2), and so is that the holdoffs come first (log 23). -/
def Obligations.StrobeDoesTheWorkOfItsRows : Prop :=
  (∀ (order : List StrobeWork) (s : State), exec (.ordinaryStrobe order) s = .next (s.advanceMark.countFrame.strobeReport order))
  ∧ (∀ (loss : List LossWork) (order : List StrobeWork) (s : State),
    exec (.epochStrobe loss order) s = .next ((s.takeEpoch loss).countFrame.strobeReport order))
  ∧ (∀ (order : List StrobeWork) (s : State), order.Nodup → (∀ w, w ∈ order ↔ w ∈ s.holdoffsStrobe.strobeWork) →
    s.strobeReport order = order.foldl doStrobeWork s.holdoffsStrobe)
  ∧ (∀ (order : List StrobeWork) (s : State),
    ∃ named rest : List StrobeWork, (∀ w, w ∈ named ↔ w ∈ order ∧ w ∈ s.holdoffsStrobe.strobeWork)
      ∧ (∀ w, w ∈ named ++ rest ↔ w ∈ s.holdoffsStrobe.strobeWork)
      ∧ ((s.cc.pages.map (·.handset)).Nodup → (named ++ rest).Nodup)
      ∧ s.strobeReport order = (named ++ rest).foldl doStrobeWork s.holdoffsStrobe)
  ∧ (∀ s : State, .measurement ∈ s.strobeWork ∧ .slotPlanner ∈ s.strobeWork ∧ .quietPeriod ∈ s.strobeWork
    ∧ .drainLimit ∈ s.strobeWork ∧ .occupancy ∈ s.strobeWork
    ∧ (∀ i : Fin 64, (.silence i ∈ s.strobeWork ↔ s.entry? i.val ≠ none) ∧ (.setup i ∈ s.strobeWork ↔ s.entry? i.val ≠ none))
    ∧ (∀ h : Handset, .page h ∈ s.strobeWork ↔ ∃ p ∈ s.cc.pages, p.handset = h)
    ∧ ∀ r : Fin 4, .findRecord r ∈ s.strobeWork ∧ .outbound r ∈ s.strobeWork ∧ .inbound r ∈ s.strobeWork)
  ∧ (∀ (i : Fin 64) (e : Entry) (s : State), s.entry? i.val = some e →
    (e.holdoff ≠ 1 → s.holdoffsStrobe.entry? i.val = some { e with holdoff := e.holdoff - 1 })
    ∧ (e.holdoff = 1 → exec (.holdoffExpiry i) s = .next
        (s.setEntry i.val (s.holdoffsStrobe.entry? i.val))))
  ∧ (∀ s : State, s.holdoffsStrobe = { s with rc := { s.rc with table := s.holdoffsStrobe.rc.table } }
    ∧ ∀ i, s.entry? i = none → s.holdoffsStrobe.entry? i = none)
  ∧ (∀ s : State, doStrobeWork s .measurement = { s with mu := { s.mu with
      overheard := (s.mu.overheard.map fun o => { o with age := o.age + 1 }).filter fun o => o.age < s.sc.config.overheardLife
      listens := s.mu.listens.filter fun r => !s.tb.due r.replyBy } })
  ∧ (∀ s : State, ∃ u, exec .planChangeDue s = .next u ∧ doStrobeWork s .slotPlanner = u.buildPlan)
  ∧ (∀ (i : Fin 64) (e : Entry) (n : Nat) (s : State), s.entry? i.val = some e → e.phase = .idle n →
    (s.tb.frames.toNat % 64 ≠ 0 → doStrobeWork s (.silence i) = s)
    ∧ (s.tb.frames.toNat % 64 = 0 → n + 1 < s.sc.config.idleExpiry →
        doStrobeWork s (.silence i) = s.setEntry i.val (some { e with phase := .idle (n + 1) }))
    ∧ (s.tb.frames.toNat % 64 = 0 → s.sc.config.idleExpiry ≤ n + 1 →
        exec (.idleExpiry i) s = .next (doStrobeWork s (.silence i))))
  ∧ (∀ (i : Fin 64) (r : SetupRecord) (s : State), s.setup? i.val = some r →
    (2 ≤ r.counter → doStrobeWork s (.setup i) = { s with cc := { s.cc with
      setups := s.cc.setups.map fun x => if x.entry == i.val then { x with counter := x.counter - 1 } else x } })
    ∧ (r.counter ≤ 1 → exec (.setupCounterExpiry i) s = .next (doStrobeWork s (.setup i))))
  ∧ (∀ (h : Handset) (p : PageRecord) (s : State), s.page? h = some p →
    (2 ≤ p.remaining → doStrobeWork s (.page h) = { s with cc := { s.cc with
      pages := s.cc.pages.map fun x => if x.handset == h then { x with remaining := x.remaining - 1 } else x } })
    ∧ (p.remaining ≤ 1 → exec (.pageTimeout h) s = .next (doStrobeWork s (.page h))))
  ∧ (∀ (r : Fin 4) (f : FindRecord) (s : State), s.findRecord? r.val = some f →
    (2 ≤ f.remaining →
      doStrobeWork s (.findRecord r) = s.setFind r.val (some { f with remaining := f.remaining - 1 }))
    ∧ (f.remaining ≤ 1 → exec (.findExpiry r) s = .next (doStrobeWork s (.findRecord r))))
  ∧ (∀ (r : Fin 4) (o : OutRecord) (s : State), s.outRecord? r.val = some o →
    (∀ m l, o.phase = .seeking m l → exec (.replyByMarkDue r) s = .next (doStrobeWork s (.outbound r)))
    ∧ (∀ t m c, o.phase = .switching t m c → exec (.switchMarkDueOutbound r) s = .next (doStrobeWork s (.outbound r)))
    ∧ (∀ l t m n, o.phase = .asking l t m n →
        (2 ≤ n → doStrobeWork s (.outbound r) = s.setOut r.val (some { o with phase := .asking l t m (n - 1) }))
        ∧ (n ≤ 1 → exec (.takeTimeout r) s = .next (doStrobeWork s (.outbound r))))
    ∧ (∀ t m c n, o.phase = .fallback t m c n →
        (2 ≤ n → doStrobeWork s (.outbound r) = s.setOut r.val (some { o with phase := .fallback t m c (n - 1) }))
        ∧ (n ≤ 1 → exec (.fallbackExpiry r) s = .next (doStrobeWork s (.outbound r)))))
  ∧ (∀ (r : Fin 4) (o : InRecord) (s : State), s.inRecord? r.val = some o →
    (o.phase = .reserved → exec (.switchMarkDueInbound r) s = .next (doStrobeWork s (.inbound r)))
    ∧ (∀ n, o.phase = .awaiting n →
        (2 ≤ n → doStrobeWork s (.inbound r) = s.setIn r.val (some { o with phase := .awaiting (n - 1) }))
        ∧ (n ≤ 1 → exec (.arrivalWindowExpiry r) s = .next (doStrobeWork s (.inbound r)))))
  ∧ (∀ (i : Fin 64) (s : State), ((∀ e, s.entry? i.val = some e → e.engaged = true) → doStrobeWork s (.silence i) = s)
    ∧ (s.setup? i.val = none → doStrobeWork s (.setup i) = s))
  ∧ (∀ (r : Fin 4) (s : State), (s.findRecord? r.val = none → doStrobeWork s (.findRecord r) = s)
    ∧ (s.outRecord? r.val = none → doStrobeWork s (.outbound r) = s)
    ∧ (s.inRecord? r.val = none → doStrobeWork s (.inbound r) = s))
  ∧ (∀ (n : Nat) (s : State), s.sc.station = .listening → s.sc.quiet = some n →
    (2 ≤ n → doStrobeWork s .quietPeriod = { s with sc := { s.sc with quiet := some (n - 1) } })
    ∧ (n = 1 → exec .quietPeriodExpiry s = .next (doStrobeWork s .quietPeriod))
    ∧ (n = 0 → s.tb.known = false → doStrobeWork s .quietPeriod = s)
    ∧ (n = 0 → s.tb.known = true → doStrobeWork s .quietPeriod =
        { s.writeSlot 0 .beacon with
          sc := { s.sc with station := .active, quiet := none }
          hl := s.hl.post { kind := .joined, handset := 0, other := 0, tag := 0, reason := .none, mark := s.tb.mark
                            lost := 0 } }))
  ∧ (∀ s : State, (s.sc.station ≠ .listening → doStrobeWork s .quietPeriod = s)
    ∧ (s.sc.station ≠ .draining → doStrobeWork s .drainLimit = s)
    ∧ (s.tb.frames.toNat % 64 ≠ 0 → doStrobeWork s .drainLimit = s))
  ∧ (∀ (n : Nat) (s : State), s.sc.station = .draining → s.sc.drain = some n → s.tb.frames.toNat % 64 = 0 →
    (2 ≤ n → doStrobeWork s .drainLimit = { s with sc := { s.sc with drain := some (n - 1) } })
    ∧ (n = 1 → exec .drainLimitExpiry s = .next (doStrobeWork s .drainLimit)))
  ∧ (∀ s : State, doStrobeWork s .occupancy =
      { s with hl := { s.hl with tallies := s.hl.tallies.add .bearerOccupancy s.committed } })

/-- R142: how an attempt fails. R132, R133: candidates are asked in order; those whose TRANSFER is refused are passed; the first
admitted is the target, and with none left the attempt fails. -/
def Obligations.CandidatesAreAskedInOrder : Prop :=
  (∀ (r : Nat) (o : OutRecord) (e : Entry) (reason : Reason) (other : Nat) (s : State),
    s.outRecord? r = some o → s.entry? o.entry = some e →
    s.failAttempt r reason other =
      ((((s.post .handoverFailed e.handset other e.tag reason).count .handoverFailures).setEntry o.entry
        (some { e with holdoff := s.sc.config.holdoff })).setOut r none))
  ∧ (∀ (r : Nat) (o : OutRecord) (e : Entry) (reason : Reason) (other : Nat) (s : State),
    (∀ (refused : List Candidate) (c : Candidate) (rest : List Candidate),
      (∀ d ∈ refused, s.admits (s.transferNotice o e d) = false) → s.admits (s.transferNotice o e c) = true →
      askFrom r o e (refused ++ c :: rest) reason other s =
        (s.offer { sender := s.sc.config.stationNumber, dest := c.station, handset := e.handset, stamp := e.stamp
                   mark := s.tb.mark + BitVec.ofNat 8 s.sc.config.lead, body := .transfer o.seek e.tag }).setOut r
          (some { o with phase := .asking (c :: rest) c.station (s.tb.mark + BitVec.ofNat 8 s.sc.config.lead)
                           s.sc.config.takeTimeout }))
    ∧ (∀ (refused : List Candidate) (last : Candidate),
      (∀ d ∈ refused ++ [last], s.admits (s.transferNotice o e d) = false) →
      askFrom r o e (refused ++ [last]) reason other s = s.failAttempt r .queue last.station)
    ∧ askFrom r o e [] reason other s = s.failAttempt r reason other)

/-- R50, R131: REPLY_BY_MARK_DUE; R134: TAKE_TIMEOUT; R33, R138: SWITCH_MARK_DUE_OUTBOUND, with the withdrawal of the record's
MOVE; R141: FALLBACK_EXPIRY; R156: SWITCH_MARK_DUE_INBOUND; R158: ARRIVAL_WINDOW_EXPIRY. The model's own reading: log 1,
log 16. -/
def Obligations.HandoverDeadlinesFallDue : Prop :=
  (∀ (r : Fin 4) (o : OutRecord) (e : Entry) (m : Mark) (l : List Candidate) (s : State),
    s.outRecord? r.val = some o → o.phase = .seeking m l → s.tb.known = true → m = s.tb.mark → s.entry? o.entry = some e →
    exec (.replyByMarkDue r) s = .next
      (askFrom r.val o e (l.filter fun c => e.merit s.sc.config + o.margin ≤ c.merit) .noCandidate 0 s))
  ∧ (∀ (r : Fin 4) (o : OutRecord) (e : Entry) (l : List Candidate) (target : Nat) (m : Mark) (n : Nat) (s : State),
    s.outRecord? r.val = some o → o.phase = .asking l target m n → n ≤ 1 → s.entry? o.entry = some e →
    exec (.takeTimeout r) s = .next
      (askFrom r.val o e (l.filter fun c => c.station != target) .timeout target s))
  ∧ (∀ (r : Fin 4) (o : OutRecord) (target : Nat) (m : Mark) (c : Cell) (s : State),
    s.outRecord? r.val = some o → o.phase = .switching target m c → s.tb.known = true → m = s.tb.mark →
    (∀ e old, s.entry? o.entry = some e → e.cell? = some old → exec (.switchMarkDueOutbound r) s = .next
      (State.setOut { s with sp := { s.sp with moves := s.sp.moves.filter fun x => x.slot != old.slot } } r.val
        (some { o with phase := .fallback target m c s.sc.config.fallbackWindow })))
    ∧ ((∀ e, s.entry? o.entry = some e → e.cell? = none) → exec (.switchMarkDueOutbound r) s = .next
      (s.setOut r.val (some { o with phase := .fallback target m c s.sc.config.fallbackWindow }))))
  ∧ (∀ (r : Fin 4) (o : InRecord) (s : State),
    s.inRecord? r.val = some o → o.phase = .reserved → s.tb.known = true → o.switchMark = s.tb.mark →
    exec (.switchMarkDueInbound r) s = .next
      (s.setIn r.val (some { o with phase := .awaiting s.sc.config.arrivalWindow })))
  ∧ (∀ (r : Fin 4) (o : OutRecord) (e : Entry) (target : Nat) (m : Mark) (nc cell : Cell) (tag : Tag) (k : Link) (n : Nat)
    (s : State),
    s.outRecord? r.val = some o → o.phase = .fallback target m nc n → n ≤ 1 → s.entry? o.entry = some e →
    e.phase = .leaving cell tag k →
    exec (.fallbackExpiry r) s = .next
      ((((((s.freeSlot cell.slot).post .callLost e.handset target tag .noConfirm).count .callsLost).freeEntry o.entry).setOut
        r.val none).drainTest))
  ∧ (∀ (r : Fin 4) (o : InRecord) (e : Entry) (cell : Cell) (tag : Tag) (n : Nat) (s : State),
    s.inRecord? r.val = some o → o.phase = .awaiting n → n ≤ 1 → s.entry? o.entry = some e → e.phase = .arriving cell tag →
    exec (.arrivalWindowExpiry r) s = .next
      ((((((s.freeSlot cell.slot).freeEntry o.entry).post .arrivalMissed o.handset o.source tag .timeout).count
        .arrivalsMissed).setIn r.val none).drainTest))
  ∧ (∀ (r : Fin 4) (s : State),
    ((∀ o m l, s.outRecord? r.val = some o → o.phase = .seeking m l → s.tb.due m = false) →
      exec (.replyByMarkDue r) s = .next s)
    ∧ ((∀ o l t m n, s.outRecord? r.val = some o → o.phase = .asking l t m n → 2 ≤ n) → exec (.takeTimeout r) s = .next s)
    ∧ ((∀ o t m c, s.outRecord? r.val = some o → o.phase = .switching t m c → s.tb.due m = false) →
      exec (.switchMarkDueOutbound r) s = .next s)
    ∧ ((∀ o t m c n, s.outRecord? r.val = some o → o.phase = .fallback t m c n → 2 ≤ n) →
      exec (.fallbackExpiry r) s = .next s)
    ∧ ((∀ o, s.inRecord? r.val = some o → o.phase = .reserved → s.tb.due o.switchMark = false) →
      exec (.switchMarkDueInbound r) s = .next s)
    ∧ ((∀ o n, s.inRecord? r.val = some o → o.phase = .awaiting n → 2 ≤ n) → exec (.arrivalWindowExpiry r) s = .next s))

/-- R171: QUIET_PERIOD_EXPIRY; and a regain that finds a LISTENING station with its counter at 0 makes it ACTIVE, whatever the
order of the strobe's work (log 2). The model's own reading: log 1. -/
def Obligations.QuietPeriodMakesTheStationActive : Prop :=
  (∀ s : State, s.sc.station = .listening → s.sc.quiet = some 1 →
    (s.tb.known = true → exec .quietPeriodExpiry s = .next
      { s.writeSlot 0 .beacon with
        sc := { s.sc with station := .active, quiet := none }
        hl := s.hl.post { kind := .joined, handset := 0, other := 0, tag := 0, reason := .none, mark := s.tb.mark, lost := 0 } })
    ∧ (s.tb.known = false → exec .quietPeriodExpiry s = .next { s with sc := { s.sc with quiet := some 0 } }))
  ∧ (∀ (loss : List LossWork) (order : List StrobeWork) (s : State), s.sc.station = .listening → s.sc.quiet = some 0 →
    s.tb.known = false ∨ s.tb.mark ≠ 255 → ∃ t, exec (.epochStrobe loss order) s = .next t
      ∧ t.sc = { s.sc with station := .active, quiet := none })
  ∧ (∀ s : State, s.sc.station ≠ .listening ∨ s.sc.quiet ≠ some 1 → exec .quietPeriodExpiry s = .next s)

/-- R173, R174: DRAIN_LIMIT_EXPIRY, what drain completion leaves, and what it posts: CALL LOST with DRAIN for each engaged
entry in ascending index, then LEFT with the count of entries and the reason. R36, R107, R126: what it clears, and that the
rest of the part is kept. R112, R126: how the transmit queue is discarded, and what else of the bus goes with it. The model's own reading: log 1, log 9, log 16. -/
def Obligations.DrainLimitCompletesTheDrain : Prop :=
  (∀ s : State, s.sc.station = .draining → s.sc.drain = some 1 → exec .drainLimitExpiry s = .next (s.completeDrain .limit))
  ∧ (∀ (s : State) (reason : Reason),
      (s.completeDrain reason).sc = { s.sc with station := .configured, drain := none }
      ∧ (s.completeDrain reason).EmptyOutOfService
      ∧ (s.completeDrain reason).mu.overheard = [] ∧ (s.completeDrain reason).bus.rx = []
      ∧ (∀ q ∈ (s.completeDrain reason).bus.queue, q.inTransmission = true)
      ∧ s.KeptByFrames (s.completeDrain reason) ∧ (s.completeDrain reason).tb = s.tb)
  ∧ (∀ s : State, s.sc.station = .draining → (∀ i e, s.entry? i = some e → e.engaged = false) →
      s.drainTest = s.completeDrain .complete)
  ∧ (∀ (s : State) (i : Nat) (e : Entry), s.entry? i = some e → e.engaged = true → s.drainTest = s)
  ∧ (∀ s : State, s.sc.station ≠ .draining → s.drainTest = s)
  ∧ (∀ (s : State) (reason : Reason), (s.completeDrain reason).hl =
      ((List.range 64).foldl State.loseByDrain s).hl.post
        { kind := .left, handset := 0, other := 0, tag := BitVec.ofNat 16 (s.rc.table.toList.countP Option.isSome)
          reason := reason, mark := s.tb.mark, lost := 0 })
  ∧ (∀ (s : State) (i : Nat),
      ((∀ e, s.entry? i = some e → e.engaged = false) → s.loseByDrain i = s)
      ∧ (∀ e, s.entry? i = some e → e.engaged = true → s.loseByDrain i =
          (s.post .callLost e.handset (s.drainOther i e) e.tag .drain).count .callsLost)
      ∧ (∀ e, e.isSetup = true ∨ e.isInCall = true → s.drainOther i e = 0)
      ∧ (∀ e r o target, e.isLeaving = true → s.outOf i = some r → s.outRecord? r = some o → o.phase.target? = some target →
          s.drainOther i e = target)
      ∧ (∀ e r o, e.isArriving = true → s.inOf i = some r → s.inRecord? r = some o → s.drainOther i e = o.source))
  ∧ (∀ s : State, s.sc.station ≠ .draining ∨ s.sc.drain ≠ some 1 → exec .drainLimitExpiry s = .next s)
  ∧ (∀ (s : State) (reason : Reason), s.completeDrain reason = { s with
      sp := { s.sp with plan := Vector.replicate 16 .free, changes := [], moves := [], beaconQ := [] }
      mu := { s.mu with overheard := [], listens := [] }
      rc := { s.rc with table := Vector.replicate 64 none, finds := Vector.replicate 4 none }
      cc := { s.cc with setups := [], pages := [], rotation := none }
      he := { s.he with outbound := Vector.replicate 4 none, inbound := Vector.replicate 4 none }
      bus := s.bus.clear
      sc := { s.sc with station := .configured, drain := none }
      hl := (s.completeDrain reason).hl })
  ∧ (∀ b : Bus, b.clear = { b.discardQueue with yieldCount := 0, rx := [] }
    ∧ (b.tx = .waiting → b.discardQueue = { b with queue := [], mode := .opened })
    ∧ (∀ w, b.tx = .contending w → b.discardQueue = { b with queue := [], mode := .opened, tx := .waiting })
    ∧ (∀ w, b.tx = .sending w → b.discardQueue =
        { b with queue := b.queue.filter fun q => q.inTransmission, mode := .opened }))

/-! ### Burst reports -/

/-- R54, R57: LISTEN_REPORT. The cell heard takes one step with shift 2 and no other cell changes; a report that names a handset
is a hearing of it. The model's own reading: log 11, log 12, log 21. -/
def Obligations.ListenReportFeedsTheMap : Prop :=
  ∀ (w : BurstWord) (b : Burst) (s : State), Burst.ofWord w = b → s.ListenAsks b → s.joined = true → 1 ≤ b.slot →
    ∃ t, exec (.listenReport w) s = .next t
      ∧ t.interference { slot := b.slot, carrier := b.carrier }
          = filterStep (s.interference { slot := b.slot, carrier := b.carrier }) b.level 2
      ∧ (∀ c : Cell, 1 ≤ c.slot → c.slot ≤ 15 → c.carrier ≤ 7 → c ≠ { slot := b.slot, carrier := b.carrier } →
          t.interference c = s.interference c)
      ∧ (b.handset? = none → t = { s.markReported b.slot with mu := { s.mu with map := t.mu.map } })
      ∧ (∀ h, b.handset? = some h →
          t = State.hearing { s.markReported b.slot with mu := { s.mu with map := t.mu.map } } h b.level
            { slot := b.slot, carrier := b.carrier })

/-- R57 to R59, R66, R150: what a hearing does, and what it does with each targeted listen it ends. -/
def Obligations.HearingUpdatesTheOverheardList : Prop :=
  (∀ (h : Handset) (l : Nat) (c : Cell) (s : State), s.isHeld h = true → s.hearing h l c = s)
  ∧ (∀ (h : Handset) (l : Nat) (c : Cell) (s : State) (new : Overheard), s.isHeld h = false →
      new = { handset := h, age := 0, cell := c
              level := match s.mu.overheard.find? (fun o => o.handset == h) with
                | some o => filterStep o.level l s.sc.config.filterShift
                | none => 16 * l } →
      s.hearing h l c = (s.mu.listens.filter fun r => r.handset == h).foldl State.answerListen
        { s with mu := { s.mu with
            overheard := (new :: s.mu.overheard.filter fun o => o.handset != h).take 96
            listens := s.mu.listens.filter fun r => r.handset != h } })
  ∧ (∀ (r : ListenRequest) (s : State), s.isActive = false ∨ s.tb.within r.replyBy 1 128 = false ∨ s.isHeld r.handset = true
      ∨ s.hasAllocatable = false → s.answerListen r = s)
  ∧ (∀ (r : ListenRequest) (o : Overheard) (s : State), s.isActive = true → s.tb.within r.replyBy 1 128 = true →
      s.isHeld r.handset = false → s.hasAllocatable = true → s.overheard? r.handset = some o →
      s.answerListen r =
        if s.sc.config.offerFloor ≤ s.offerMeritOf o then
          s.offer { sender := s.sc.config.stationNumber, dest := r.seeker, handset := r.handset, stamp := r.stamp
                    mark := s.tb.mark, body := .offer r.seek (s.offerMeritOf o) (15 - s.committed) }
        else s)

/-- R31, R78, R106: the beacon downlink queue, and the tallies of GRANT and DENY. -/
def Obligations.BeaconQueueAdmission : Prop :=
  (∀ (s : State) (m : Downlink), s.sp.beaconQ.length < 8 →
    s.offerBeacon m = { s with sp := { s.sp with beaconQ := s.sp.beaconQ ++ [m] } })
  ∧ (∀ (s : State) (m : Downlink), 8 ≤ s.sp.beaconQ.length → s.offerBeacon m = s)
  ∧ (∀ (s : State) (h : Handset), s.sp.beaconQ.length < 8 → s.grant h = (s.offerBeacon (.grant h)).count .attachGranted)
  ∧ (∀ (s : State) (h : Handset), 8 ≤ s.sp.beaconQ.length → s.grant h = s.count .attachDenied)
  ∧ (∀ (s : State) (h : Handset) (r : DenyReason), s.denyAttach h r = (s.offerBeacon (.deny h r)).count .attachDenied)
  ∧ (∀ (s : State) (h : Handset) (r : DenyReason), s.denyCall h r = s.offerBeacon (.deny h r))

/-- R57, R73 to R77: ATTACH. The model's own reading: log 11, log 25. -/
def Obligations.AttachIsAnswered : Prop :=
  ∀ (w : BurstWord) (b : Burst) (h : Handset) (epoch : BitVec 8) (target : Nat) (s u : State),
    Burst.ofWord w = b → s.BeaconAsks b → b.handset? = some h → b.message = .attach epoch target → s.serving = true →
    u = s.markReported b.slot →
    (target ≠ s.sc.config.stationNumber →
      exec (.attach w) s = .next (u.hearing h b.level { slot := b.slot, carrier := b.carrier }))
    ∧ (target = s.sc.config.stationNumber → s.sc.station = .draining → exec (.attach w) s = .next (u.denyAttach h .leaving))
    ∧ (target = s.sc.config.stationNumber → s.sc.station = .active → s.find? h = none → s.freeIndex = none →
        exec (.attach w) s = .next (u.denyAttach h .full))
    ∧ (∀ i, target = s.sc.config.stationNumber → s.sc.station = .active → s.find? h = none → s.freeIndex = some i →
        exec (.attach w) s = .next
          ((((State.grant { u.setEntry i (some { handset := h, stamp := { epoch := epoch, hop := 0 }, phase := .idle 0
                                                 level := 16 * b.level, armed := false, holdoff := 0, claimOwed := false })
              with mu := { s.mu with overheard := s.mu.overheard.filter (fun o => o.handset != h)
                                     listens := s.mu.listens.filter (fun r => r.handset != h) } } h).offerClaim i).post
            .attached h 0 0 .new)))
    ∧ (∀ i e, target = s.sc.config.stationNumber → s.sc.station = .active → s.find? h = some (i, e) →
        (epoch = e.stamp.epoch → exec (.attach w) s = .next (u.grant h))
        ∧ (epoch ≠ e.stamp.epoch → serialNewer epoch e.stamp.epoch = false →
            exec (.attach w) s = .next (u.denyAttach h .stale))
        ∧ (∀ v, serialNewer epoch e.stamp.epoch = true →
            v = (if e.engaged then (u.releaseCall i e).callLost e 0 .reattach else u) →
            exec (.attach w) s = .next
              (((((v.removePage h).setEntry i (some { e with
                  stamp := { epoch := epoch, hop := 0 }, phase := .idle 0, level := 16 * b.level })).grant h).offerClaim
                i).post .attached h 0 0 .newTenure)))

/-- R79: PRESENCE, and the Registration Controller's part of CALL and PAGE REPLY. The model's own reading: log 11. -/
def Obligations.PresenceResetsSilence : Prop :=
  (∀ (w : BurstWord) (b : Burst) (h : Handset) (s u : State),
    Burst.ofWord w = b → s.BeaconAsks b → b.handset? = some h → b.message = .presence → s.serving = true →
    u = s.markReported b.slot →
    (∀ i e, s.find? h = some (i, e) → exec (.presence w) s = .next (u.hearUplink h b.level))
    ∧ (s.find? h = none → s.sc.station = .active → exec (.presence w) s = .next (u.denyAttach h .notAttached))
    ∧ (s.find? h = none → s.sc.station = .draining → exec (.presence w) s = .next (u.denyAttach h .leaving)))
  ∧ (∀ (h : Handset) (l i n : Nat) (e : Entry) (s : State), s.find? h = some (i, e) → e.phase = .idle n →
      s.hearUplink h l =
        s.setEntry i (some { e with phase := .idle 0, level := filterStep e.level l s.sc.config.filterShift }))
  ∧ (∀ (h : Handset) (l i : Nat) (e : Entry) (s : State), s.find? h = some (i, e) → e.engaged = true →
      s.hearUplink h l = s.setEntry i (some { e with level := filterStep e.level l s.sc.config.filterShift }))
  ∧ (∀ (h : Handset) (l : Nat) (s : State), s.find? h = none → s.hearUplink h l = s)

/-- R189, R191: how a burst report record is read, and how the frame plan and its messages are written. R35, R39: how a burst
reads as a report of a bearer's handset. R34: the reports that the plan in force did not ask for, or has had, are discarded
whole. R35: a report whose slot no longer carries the handset, a beacon uplink report that carries no uplink message, or that no
handset is named by, is only marked, and so is one of a handset that has no entry. The model's own reading: log 11, log 12, log 13. -/
def Obligations.BurstReportsAreReadOrDiscarded : Prop :=
  (∀ (w : BurstWord) (b : Burst) (s : State), Burst.ofWord w = b → s.BeaconAsks b →
    (b.message = .none ∨ b.message = .clear →
      exec (.attach w) s = .next (s.markReported b.slot) ∧ exec (.presence w) s = .next (s.markReported b.slot)
      ∧ exec (.call w) s = .next (s.markReported b.slot) ∧ exec (.pageReply w) s = .next (s.markReported b.slot))
    ∧ (b.handset? = none → b.message = .presence → exec (.presence w) s = .next (s.markReported b.slot))
    ∧ (b.handset? = none → b.message = .call → exec (.call w) s = .next (s.markReported b.slot))
    ∧ (∀ tag, b.handset? = none → b.message = .pageReply tag → exec (.pageReply w) s = .next (s.markReported b.slot))
    ∧ (∀ epoch target, b.handset? = none → b.message = .attach epoch target →
        exec (.attach w) s = .next (s.markReported b.slot)))
  ∧ (∀ (w : BurstWord) (slot : BitVec 4) (u0 : BitVec 1) (carrier : BitVec 3) (sync check : Bool) (level : BitVec 6)
      (origin : BitVec 2) (present : Bool) (u1 : BitVec 2) (kind : BitVec 3) (identity : BitVec 24) (argument : BitVec 16),
    w = slot ++ u0 ++ carrier ++ BitVec.ofBool sync ++ BitVec.ofBool check ++ level ++ origin ++ BitVec.ofBool present ++ u1
      ++ kind ++ identity ++ argument →
    (Burst.ofWord w).slot = slot.toNat ∧ (Burst.ofWord w).carrier = carrier.toNat ∧ (Burst.ofWord w).sync = sync
    ∧ (Burst.ofWord w).check = check ∧ (Burst.ofWord w).level = level.toNat
    ∧ (Burst.ofWord w).origin = (if origin = 0 then .none else if origin = 1 then .handset else .station)
    ∧ ((Burst.ofWord w).handset? =
        if sync = true ∧ check = true ∧ present = true ∧ origin = 1 ∧ identity ≠ 0 then some identity else none)
    ∧ (sync = false ∨ check = false ∨ present = false → (Burst.ofWord w).identity = none ∧ (Burst.ofWord w).message = .none)
    ∧ (sync = true → check = true → present = true →
        (Burst.ofWord w).identity = (if identity = 0 then none else some identity)
        ∧ (kind = 1 → (Burst.ofWord w).message =
            .attach (argument.extractLsb' 8 8) (argument.extractLsb' 0 8).toNat)
        ∧ (kind = 2 → (Burst.ofWord w).message = .presence) ∧ (kind = 3 → (Burst.ofWord w).message = .call)
        ∧ (kind = 4 → (Burst.ofWord w).message = .pageReply argument) ∧ (kind = 5 → (Burst.ofWord w).message = .clear)
        ∧ (kind = 0 ∨ kind = 6 ∨ kind = 7 → (Burst.ofWord w).message = .none)))
  ∧ (∀ (b : Burst) (h : Handset),
    (b.sync = true → b.check = true → b.origin = .station ∨ (∃ x, b.identity = some x ∧ x ≠ h) →
      b.forHandset h = { sync := false, check := true, level := 0, good := false, clear := decide (b.message = .clear) })
    ∧ (b.sync = false → b.forHandset h =
        { sync := false, check := b.check, level := 0, good := false, clear := decide (b.message = .clear) })
    ∧ (b.sync = true → ¬(b.check = true ∧ (b.origin = .station ∨ ∃ x, b.identity = some x ∧ x ≠ h)) → b.forHandset h =
        { sync := true, check := b.check, level := b.level, good := decide (b.check = true ∧ b.identity = some h)
          clear := decide (b.message = .clear) }))
  ∧ (∀ p : SlotPlanner, p.radioRecord.length = 17 + 8 * p.sent.length
    ∧ p.radioRecord[0]? = some (BitVec.ofNat 8 p.sent.length)
    ∧ (∀ k slot, k < 16 → p.inForce[k]? = some slot → p.radioRecord[k + 1]? =
        some (slot.role.code ++ BitVec.ofNat 3 (slot.role.carrier?.getD 0)
          ++ BitVec.ofNat 2 (p.sent.countP fun m => m.slot == k)))
    ∧ (∀ k m, p.sent[k]? = some m → (p.radioRecord.drop (17 + 8 * k)).take 8 =
        [BitVec.ofNat 4 m.slot ++ m.message.code, m.message.handset.extractLsb' 16 8, m.message.handset.extractLsb' 8 8,
          m.message.handset.extractLsb' 0 8, m.message.argument.extractLsb' 24 8, m.message.argument.extractLsb' 16 8,
          m.message.argument.extractLsb' 8 8, m.message.argument.extractLsb' 0 8]))
  ∧ (∀ (r : PlanRole) (c : Nat) (h : Handset) (q : Option ListenRequest), (r = .idle → r.code = 0 ∧ r.carrier? = none)
    ∧ (r = .beacon c → r.code = 1 ∧ r.carrier? = some c) ∧ (r = .bearer c h → r.code = 2 ∧ r.carrier? = some c)
    ∧ (r = .held c h → r.code = 3 ∧ r.carrier? = some c) ∧ (r = .listen c q → r.code = 4 ∧ r.carrier? = some c))
  ∧ (∀ (d : Downlink) (h : Handset) (station : Nat) (m : Mark) (known : Bool) (f : BeaconFlag) (r : DenyReason) (c : Cell)
      (t : Tag),
    (d = .header station m known f → d.code = 1 ∧ d.handset = 0
      ∧ d.argument = BitVec.ofNat 6 station ++ m ++ BitVec.ofBool known ++ f.code ++ (0 : BitVec 15))
    ∧ (d = .grant h → d.code = 2 ∧ d.handset = h ∧ d.argument = 0)
    ∧ (d = .deny h r → d.code = 3 ∧ d.handset = h ∧ d.argument = r.code ++ (0 : BitVec 28))
    ∧ (d = .bearer h c t → d.code = 4 ∧ d.handset = h
      ∧ d.argument = BitVec.ofNat 4 c.slot ++ BitVec.ofNat 3 c.carrier ++ t ++ (0 : BitVec 9))
    ∧ (d = .page h t → d.code = 5 ∧ d.handset = h ∧ d.argument = t ++ (0 : BitVec 16))
    ∧ (d = .move h station c m → d.code = 6 ∧ d.handset = h
      ∧ d.argument = BitVec.ofNat 6 station ++ BitVec.ofNat 4 c.slot ++ BitVec.ofNat 3 c.carrier ++ m ++ (0 : BitVec 11)))
  ∧ ([DenyReason.leaving, .full, .stale, .notAttached, .busy, .noPage, .noBearer].map DenyReason.code = [1, 2, 3, 4, 5, 6, 7]
    ∧ [BeaconFlag.vacant, .full, .leaving].map BeaconFlag.code = [0, 1, 2])
  ∧ (∀ (w : BurstWord) (b : Burst) (s : State), Burst.ofWord w = b →
    (s.planned b.slot).role = .idle ∨ (s.planned b.slot).reported = true
      ∨ (∃ c, c ≠ b.carrier ∧ ((s.planned b.slot).role = .beacon c ∨ (∃ h, (s.planned b.slot).role = .bearer c h)
          ∨ (∃ h, (s.planned b.slot).role = .held c h) ∨ ∃ r, (s.planned b.slot).role = .listen c r)) →
    exec (.listenReport w) s = .next s ∧ exec (.attach w) s = .next s ∧ exec (.presence w) s = .next s
    ∧ exec (.call w) s = .next s ∧ exec (.pageReply w) s = .next s ∧ exec (.bearerReport w) s = .next s
    ∧ exec (.heldReport w) s = .next s)
  ∧ (∀ (w : BurstWord) (b : Burst) (h : Handset) (s : State), Burst.ofWord w = b →
    (∀ c, s.slotEntry b.slot ≠ .bearer c h ∧ s.slotEntry b.slot ≠ .held c h) →
    (s.planned b.slot = { role := .bearer b.carrier h, reported := false } →
      exec (.bearerReport w) s = .next (s.markReported b.slot))
    ∧ (s.planned b.slot = { role := .held b.carrier h, reported := false } →
      exec (.heldReport w) s = .next (s.markReported b.slot)))
  ∧ (∀ (w : BurstWord) (b : Burst) (h : Handset) (s : State), Burst.ofWord w = b → s.find? h = none →
    (s.BearerAsks b h → exec (.bearerReport w) s = .next (s.markReported b.slot))
    ∧ (s.HeldAsks b h → exec (.heldReport w) s = .next (s.markReported b.slot)))
  ∧ (∀ (s : State) (slot : Nat) (h : Handset), s.stillCarries slot h = true ↔
      ∃ c, s.slotEntry slot = .bearer c h ∨ s.slotEntry slot = .held c h)
  ∧ (∀ (s : State) (slot : Nat), slot < 16 →
    (s.markReported slot).planned slot = { role := (s.planned slot).role, reported := true }
    ∧ (∀ k, k ≠ slot → (s.markReported slot).planned k = s.planned k)
    ∧ s.markReported slot = { s with sp := { s.sp with inForce := (s.markReported slot).sp.inForce } })
  ∧ (∀ (w : BurstWord) (b : Burst) (s : State), Burst.ofWord w = b →
    ((∀ c r, (s.planned b.slot).role ≠ .listen c r) → exec (.listenReport w) s = .next s)
    ∧ ((∀ c h, (s.planned b.slot).role ≠ .bearer c h) → exec (.bearerReport w) s = .next s)
    ∧ ((∀ c h, (s.planned b.slot).role ≠ .held c h) → exec (.heldReport w) s = .next s)
    ∧ ((∀ c, (s.planned b.slot).role ≠ .beacon c) → exec (.attach w) s = .next s ∧ exec (.presence w) s = .next s
        ∧ exec (.call w) s = .next s ∧ exec (.pageReply w) s = .next s)
    ∧ ((∃ epoch target, b.message = .attach epoch target) → exec (.presence w) s = .next s ∧ exec (.call w) s = .next s
        ∧ exec (.pageReply w) s = .next s)
    ∧ (b.message = .presence → exec (.attach w) s = .next s ∧ exec (.call w) s = .next s ∧ exec (.pageReply w) s = .next s)
    ∧ (b.message = .call → exec (.attach w) s = .next s ∧ exec (.presence w) s = .next s ∧ exec (.pageReply w) s = .next s)
    ∧ ((∃ tag, b.message = .pageReply tag) → exec (.attach w) s = .next s ∧ exec (.presence w) s = .next s
        ∧ exec (.call w) s = .next s))
  ∧ (∀ (w : BurstWord) (b : Burst) (s : State), Burst.ofWord w = b →
    (s.ListenAsks b → s.joined = false → exec (.listenReport w) s = .next (s.markReported b.slot))
    ∧ (s.BeaconAsks b → s.serving = false →
        ((∃ epoch target, b.message = .attach epoch target) → exec (.attach w) s = .next (s.markReported b.slot))
        ∧ (b.message = .presence → exec (.presence w) s = .next (s.markReported b.slot))
        ∧ (b.message = .call → exec (.call w) s = .next (s.markReported b.slot))
        ∧ ((∃ tag, b.message = .pageReply tag) → exec (.pageReply w) s = .next (s.markReported b.slot))))

/-- R91, R92: the cell a selection chooses, and the search order: the window order, slot by slot, from the cell after the
allocation cursor round to the cursor. -/
def Obligations.SelectionTakesTheQuietestCell : Prop :=
  (∀ (s : State) (c : Cell), s.allocatable c = true ↔
    s.sc.config.scanFirstSlot ≤ c.slot ∧ c.slot ≤ s.sc.config.scanLastSlot
    ∧ s.sc.config.scanFirstCarrier ≤ c.carrier ∧ c.carrier ≤ s.sc.config.scanLastCarrier
    ∧ s.slotEntry c.slot = .free ∧ (∀ d ∈ s.sp.changes, d.slot ≠ c.slot)
    ∧ s.interference c ≤ s.sc.config.cleanLimit)
  ∧ (∀ (s : State) (c : Cell), s.selectCell = some c →
      s.allocatable c = true ∧ (∀ d, s.allocatable d = true → s.interference c ≤ s.interference d)
      ∧ ∃ before rest, s.searchOrder = before ++ c :: rest
        ∧ ∀ d ∈ before, s.allocatable d = true → s.interference c < s.interference d)
  ∧ (∀ s : State, s.selectCell = none ↔ ∀ d, s.allocatable d = false)
  ∧ (∀ s : State, s.hasAllocatable = true ↔ ∃ d, s.allocatable d = true)
  ∧ (∀ (s : State) (c : Cell), ConfigRecord.InRange s.sc.config → s.serving = true → s.selectCell = some c →
      (s.moveCursor c).commitRefusal? c.slot = none)
  ∧ (∀ (c : ConfigRecord) (x : Cell), x ∈ windowOrder c ↔ c.scanFirstSlot ≤ x.slot ∧ x.slot ≤ c.scanLastSlot
      ∧ c.scanFirstCarrier ≤ x.carrier ∧ x.carrier ≤ c.scanLastCarrier)
  ∧ (∀ c : ConfigRecord, (windowOrder c).Pairwise fun a b => a.slot < b.slot ∨ (a.slot = b.slot ∧ a.carrier < b.carrier))
  ∧ (∀ (s : State) (k : Cell), s.cc.allocCursor = k → ∃ upTo beyond, windowOrder s.sc.config = upTo ++ beyond
      ∧ s.searchOrder = beyond ++ upTo
      ∧ (∀ x ∈ beyond, k.slot < x.slot ∨ (k.slot = x.slot ∧ k.carrier < x.carrier))
      ∧ ∀ x ∈ upTo, ¬(k.slot < x.slot ∨ (k.slot = x.slot ∧ k.carrier < x.carrier)))

/-- R94, R95: CALL; R96: how a setup begins. The model's own reading: log 11. -/
def Obligations.CallSetsUpOrIsDenied : Prop :=
  (∀ (s : State) (i : Nat) (e : Entry) (h : Handset) (c : Cell) (tag : Tag), s.entry? i = some e →
    s.beginSetup i h c tag =
      State.offerBeacon
        { s.setEntry i (some { e with phase := .setup c tag { ring := Ring.fresh, missRun := 0 } }) with
          cc := { s.cc with setups := s.cc.setups ++
            [{ entry := i, counter := s.sc.config.arrivalWindow, discarded := decide (8 ≤ s.sp.beaconQ.length) }] } }
        (.bearer h c tag))
  ∧ (∀ (w : BurstWord) (b : Burst) (h : Handset) (s v : State),
    Burst.ofWord w = b → s.BeaconAsks b → b.handset? = some h → b.message = .call → s.serving = true →
    v = (s.markReported b.slot).hearUplink h b.level →
    (s.sc.station = .draining → exec (.call w) s = .next ((v.denyCall h .leaving).pageFails h .leaving))
    ∧ (s.sc.station = .active → v.find? h = none → exec (.call w) s = .next (v.denyCall h .notAttached))
    ∧ (∀ i e, s.sc.station = .active → v.find? h = some (i, e) →
        (e.engaged = true → exec (.call w) s = .next (v.denyCall h .busy))
        ∧ (e.engaged = false → v.selectCell = none → exec (.call w) s = .next (v.denyCall h .noBearer))
        ∧ (∀ c x, e.engaged = false → v.selectCell = some c → (v.moveCursor c).commitRefusal? c.slot = none →
            x = (v.moveCursor c).writeSlot c.slot (.bearer c.carrier h) →
            (v.page? h = none → exec (.call w) s = .next
              (State.beginSetup { x with cc := { x.cc with tagSeq := x.cc.tagSeq + 1 } } i h c
                (BitVec.ofNat 16 (1024 * s.sc.config.stationNumber + s.cc.tagSeq.toNat))))
            ∧ (∀ p, v.page? h = some p → exec (.call w) s = .next ((x.removePage h).beginSetup i h c p.tag)))))

/-- R101: PAGE_REPLY. The model's own reading: log 11. -/
def Obligations.PageReplySetsUpOrIsDenied : Prop :=
  ∀ (w : BurstWord) (b : Burst) (h : Handset) (tag : Tag) (s v : State),
    Burst.ofWord w = b → s.BeaconAsks b → b.handset? = some h → b.message = .pageReply tag → s.serving = true →
    v = (s.markReported b.slot).hearUplink h b.level →
    (s.sc.station = .draining → exec (.pageReply w) s = .next ((v.denyCall h .leaving).pageFails h .leaving))
    ∧ (s.sc.station = .active → v.find? h = none → exec (.pageReply w) s = .next (v.denyCall h .notAttached))
    ∧ (∀ i e, s.sc.station = .active → v.find? h = some (i, e) →
        (e.engaged = true → exec (.pageReply w) s = .next (v.denyCall h .busy))
        ∧ (e.engaged = false → v.page? h = none → exec (.pageReply w) s = .next (v.denyCall h .noPage))
        ∧ (∀ p, e.engaged = false → v.page? h = some p → p.tag ≠ tag → exec (.pageReply w) s = .next v)
        ∧ (∀ p, e.engaged = false → v.page? h = some p → p.tag = tag → v.selectCell = none →
            exec (.pageReply w) s = .next (v.denyCall h .noBearer))
        ∧ (∀ p c, e.engaged = false → v.page? h = some p → p.tag = tag → v.selectCell = some c →
            (v.moveCursor c).commitRefusal? c.slot = none →
            exec (.pageReply w) s = .next
              ((((v.moveCursor c).writeSlot c.slot (.bearer c.carrier h)).removePage h).beginSetup i h c tag)))

/-- R35, R39, R41, R42, R97, R98, R103: BEARER_REPORT of an entry that is SETUP. The model's own reading: log 16, log 21. -/
def Obligations.BearerReportOfASetup : Prop :=
  ∀ (w : BurstWord) (b : Burst) (h : Handset) (i : Nat) (e : Entry) (c : Cell) (tag : Tag) (k k' : Link) (f : Nat)
    (r : LinkReport) (s u : State),
    Burst.ofWord w = b → s.BearerAsks b h → s.find? h = some (i, e) → e.phase = .setup c tag k → r = b.forHandset h →
    f = filterStep e.level r.level s.sc.config.filterShift → k' = k.enter r.sync r.check →
    u = (s.markReported b.slot).setEntry i (some { e with level := f, phase := .setup c tag k' }) →
    (r.good = false → exec (.bearerReport w) s = .next u)
    ∧ (r.good = true → r.clear = true → exec (.bearerReport w) s = .next
        ((((((u.freeSlot c.slot).dropSetup i).dropOut i).dropIn i).setEntry i (some { e with level := f, phase := .idle 0 })).post
          .callDown h 0 tag .handset).drainTest)
    ∧ (r.good = true → r.clear = false → exec (.bearerReport w) s = .next
        (((((u.setEntry i (some { e with level := f, phase := .inCall c tag k', armed := true, holdoff := 0 })).dropSetup
          i).post .callUp h 0 tag .none).count .callsUp).testTrigger i))

/-- R35, R39 to R42, R45, R49, R103, R105, R137, R157: BEARER_REPORT of an entry that is IN_CALL, LEAVING or ARRIVING.
An entry that is IDLE, or ARRIVING without a record, is only measured.
The model's own reading: log 16, log 21. -/
def Obligations.BearerReportOfACall : Prop :=
  ∀ (w : BurstWord) (b : Burst) (h : Handset) (i : Nat) (e : Entry) (c : Cell) (tag : Tag) (f : Nat) (r : LinkReport)
    (s u : State),
    Burst.ofWord w = b → s.BearerAsks b h → s.find? h = some (i, e) → r = b.forHandset h →
    f = filterStep e.level r.level s.sc.config.filterShift → u = s.markReported b.slot →
    (∀ k k' x, e.phase = .inCall c tag k → k' = k.enter r.sync r.check →
        x = u.setEntry i (some { e with level := f, phase := .inCall c tag k' }) →
        ((r.good = true ∧ r.clear = true) → exec (.bearerReport w) s = .next
          ((((((x.freeSlot c.slot).dropSetup i).dropOut i).dropIn i).setEntry i
            (some { e with level := f, phase := .idle 0 })).post .callDown h 0 tag .handset).drainTest)
        ∧ (¬(r.good = true ∧ r.clear = true) → s.sc.config.dropCount ≤ k'.missRun → exec (.bearerReport w) s = .next
          (((((((x.freeSlot c.slot).dropSetup i).dropOut i).dropIn i).setEntry i
            (some { e with level := f, phase := .idle 0 })).post .callLost h 0 tag .signal).count .callsLost).drainTest)
        ∧ (¬(r.good = true ∧ r.clear = true) → k'.missRun < s.sc.config.dropCount →
            exec (.bearerReport w) s = .next (x.testTrigger i)))
    ∧ (∀ k k' x, e.phase = .leaving c tag k → k' = k.enter r.sync r.check →
        x = u.setEntry i (some { e with level := f, phase := .leaving c tag k' }) →
        ((r.good = true ∧ r.clear = true) → exec (.bearerReport w) s = .next
          ((((((x.freeSlot c.slot).dropSetup i).dropOut i).dropIn i).setEntry i
            (some { e with level := f, phase := .idle 0 })).post .callDown h 0 tag .handset).drainTest)
        ∧ (¬(r.good = true ∧ r.clear = true) → exec (.bearerReport w) s = .next x))
    ∧ (∀ x q o, e.phase = .arriving c tag → x = u.setEntry i (some { e with level := f }) → s.inOf i = some q →
        s.inRecord? q = some o →
        (r.good = false → exec (.bearerReport w) s = .next x)
        ∧ (o.phase = .reserved → exec (.bearerReport w) s = .next x)
        ∧ (∀ n, r.good = true → o.phase = .awaiting n → exec (.bearerReport w) s = .next
            (((((x.setEntry i (some { e with level := f, phase := .inCall c tag { ring := Ring.fresh, missRun := 0 }, armed := true
                                             holdoff := 0 })).offerClaim i).post .handedIn h o.source tag .none).count
              .handoversIn).setIn q none)))
    ∧ ((e.phase = .arriving c tag ∧ s.inOf i = none) ∨ (∃ n, e.phase = .idle n) →
        exec (.bearerReport w) s = .next (u.setEntry i (some { e with level := f })))

/-- R45, R47, R48, R128: the re-arm test and the trigger test of an IN_CALL entry. The model's own reading: log 15. -/
def Obligations.TriggerFires : Prop :=
  ∀ (i : Nat) (e a : Entry) (c : Cell) (tag : Tag) (l : Link) (s : State), s.entry? i = some e → e.phase = .inCall c tag l →
    a = (if s.sc.config.triggerThreshold + s.sc.config.hysteresis ≤ e.merit s.sc.config then { e with armed := true }
      else e) →
    (∀ r, s.outOf i = some r → s.testTrigger i = s.setEntry i (some a))
    ∧ (s.tb.known = false ∨ e.holdoff ≠ 0 → s.fireKind? a = none)
    ∧ (s.tb.known = true → e.holdoff = 0 → s.sc.station = .draining → s.fireKind? a = some .forced)
    ∧ (s.tb.known = true → e.holdoff = 0 → s.sc.station = .active →
        (s.sc.config.collapseCount ≤ l.missRun → s.fireKind? a = some .collapse)
        ∧ (l.missRun < s.sc.config.collapseCount → a.armed = true → e.merit s.sc.config < s.sc.config.triggerThreshold →
            s.fireKind? a = some .threshold)
        ∧ (l.missRun < s.sc.config.collapseCount →
            (a.armed = false ∨ s.sc.config.triggerThreshold ≤ e.merit s.sc.config) → s.fireKind? a = none))
    ∧ (s.outOf i = none → s.fireKind? a = none → s.testTrigger i = s.setEntry i (some a))
    ∧ (s.outOf i = none → s.freeOut = none → s.testTrigger i = s.setEntry i (some a))
    ∧ (∀ k r n x, s.outOf i = none → s.fireKind? a = some k → s.freeOut = some r →
        n = ({ sender := s.sc.config.stationNumber, dest := 0, handset := e.handset, stamp := e.stamp
               mark := s.tb.mark + BitVec.ofNat 8 s.sc.config.offerWindow
               body := .seek s.he.seekNumber c (e.merit s.sc.config) } : Notice) →
        x = s.setEntry i (some { a with armed := if k = .threshold then false else a.armed }) →
        (x.admits n = true → s.testTrigger i =
          { x.offer n with
            he := { s.he with
              seekNumber := s.he.seekNumber + 1
              outbound := s.he.outbound.setIfInBounds r (some {
                entry := i, seek := s.he.seekNumber, fire := k
                margin := if k = .threshold then s.sc.config.handoverMargin else 0
                phase := .seeking (s.tb.mark + BitVec.ofNat 8 s.sc.config.offerWindow) [] }) } })
        ∧ (x.admits n = false → s.testTrigger i =
            ((x.post .handoverFailed e.handset 0 tag .queue).count .handoverFailures).setEntry i
              (some { a with armed := if k = .threshold then false else a.armed, holdoff := s.sc.config.holdoff })))

/-- R35, R39, R139: HELD_REPORT of a FALLBACK record, and of an entry without one, which is only measured.
The model's own reading: log 16. -/
def Obligations.HeldReportReturnsTheCall : Prop :=
  (∀ (w : BurstWord) (b : Burst) (h : Handset) (i q : Nat) (e : Entry) (o : OutRecord) (c nc : Cell) (tag : Tag) (k k' : Link)
    (f target n : Nat) (m : Mark) (r : LinkReport) (s x : State),
    Burst.ofWord w = b → s.HeldAsks b h → s.find? h = some (i, e) → e.phase = .leaving c tag k → r = b.forHandset h →
    f = filterStep e.level r.level s.sc.config.filterShift → k' = k.enter r.sync r.check →
    s.outOf i = some q → s.outRecord? q = some o → o.phase = .fallback target m nc n →
    x = (s.markReported b.slot).setEntry i (some { e with level := f, phase := .leaving c tag k' }) →
    (r.good = false → exec (.heldReport w) s = .next x)
    ∧ (r.good = true → r.clear = true → exec (.heldReport w) s = .next
        ((((((x.freeSlot c.slot).dropSetup i).dropOut i).dropIn i).setEntry i (some { e with level := f, phase := .idle 0 })).post
          .callDown h 0 tag .handset).drainTest)
    ∧ (r.good = true → r.clear = false → exec (.heldReport w) s = .next
        (((((x.restoreSlot c.slot h).setEntry i
          (some { e with level := f, phase := .inCall c tag k', holdoff := s.sc.config.holdoff })).post .handoverFailed h target
            tag .returned).count .handoverFailures).setOut q none)))
  ∧ (∀ (w : BurstWord) (b : Burst) (h : Handset) (i : Nat) (e : Entry) (r : LinkReport) (s : State),
    Burst.ofWord w = b → s.HeldAsks b h → s.find? h = some (i, e) → r = b.forHandset h →
    (∀ q o target m nc n, s.outOf i = some q → s.outRecord? q = some o → o.phase ≠ .fallback target m nc n) →
    exec (.heldReport w) s = .next ((s.markReported b.slot).setEntry i (some (Entry.enterOutcome
      { e with level := filterStep e.level r.level s.sc.config.filterShift } r.sync r.check))))

/-! ### The bus -/

/-- R111, R114: NOTICE_BEGIN begins the oldest notice of the most urgent class; R111, R113: when it begins none. R111, R120:
CONTENTION_LOST. The model's own reading: log 6, log 7, log 8. -/
def Obligations.NoticeBeginsAndMayLose : Prop :=
  (∀ (idle : Nat) (through : Bool) (k : Nat) (q : QueuedNotice) (s : State),
    s.bus.tx = .waiting → s.serving = true → 16 ≤ s.bus.idle + idle → 1 ≤ s.sc.config.yieldBurst →
    (s.bus.yieldCount < s.sc.config.yieldBurst ∨ s.sc.config.yieldTime ≤ s.bus.idle + idle) →
    s.bus.queue[k]? = some q →
    (∀ j p, j < k → s.bus.queue[j]? = some p → p.notice.kindClass ≠ q.notice.kindClass) →
    (q.notice.kindClass = .completion ∨ ((∀ p ∈ s.bus.queue, p.notice.kindClass ≠ .completion)
      ∧ (q.notice.kindClass = .protocol ∨ ∀ p ∈ s.bus.queue, p.notice.kindClass ≠ .protocol))) →
    exec (.noticeBegin idle through) s = .next { s with bus := { s.bus with
      queue := s.bus.queue.modify k fun x => { x with inTransmission := true }
      tx := if through then .sending q.notice.encode else .contending q.notice.encode
      yieldCount := if s.sc.config.yieldBurst ≤ s.bus.yieldCount then 0 else s.bus.yieldCount
      idle := 0 } })
  ∧ (∀ (bit : Fin 10) (w : NoticeWord) (s t : State), s.bus.tx = .contending w → w.getMsbD bit.val = true →
    t = State.count { s with bus := { s.bus with
      queue := (s.bus.queue.filter fun q => !(q.inTransmission && q.condemned)).map fun q =>
        { q with inTransmission := false }
      tx := .waiting, idle := 0 } } .contentionLosses →
    ((∀ q ∈ s.bus.queue, q.condemned = false) → exec (.contentionLost bit) s = .next t)
    ∧ ((∃ q ∈ s.bus.queue, q.inTransmission = true ∧ q.condemned = true) →
        exec (.contentionLost bit) s = .next t.occupancyFell))
  ∧ (∀ (idle : Nat) (through : Bool) (s : State), s.bus.tx ≠ .waiting → exec (.noticeBegin idle through) s = .next s)
  ∧ (∀ (idle : Nat) (through : Bool) (s : State), s.bus.tx = .waiting →
    (s.bus.idle + idle < 16 ∨ s.serving = false ∨ s.bus.queue = []
      ∨ (s.sc.config.yieldBurst ≤ s.bus.yieldCount ∧ s.bus.idle + idle < s.sc.config.yieldTime)) →
    exec (.noticeBegin idle through) s = .next { s with bus := { s.bus with
      idle := s.bus.idle + idle
      yieldCount := if s.sc.config.yieldBurst ≤ s.bus.yieldCount ∧ s.sc.config.yieldTime ≤ s.bus.idle + idle then 0
        else s.bus.yieldCount } })
  ∧ (∀ (bit : Fin 10) (s : State),
    ((∀ w, s.bus.tx ≠ .contending w) → exec (.contentionLost bit) s = .next s)
    ∧ (∀ w, s.bus.tx = .contending w → w.getMsbD bit.val = false → exec (.contentionLost bit) s = .next s))

/-- R112, R113, R116, R119: NOTICE_SENT, and the fall of occupancy it brings: the owed CLAIM of the lowest index is offered, and
the next after it, until one is refused; R113: YIELD_TIME_EXPIRY. The model's own reading: log 6, log 7. -/
def Obligations.NoticeSentAndYielding : Prop :=
  (∀ (before after : List QueuedNotice) (q : QueuedNotice) (s : State), s.bus.tx ≠ .waiting →
    s.bus.queue = before ++ q :: after → (∀ p ∈ before, p.inTransmission = false) → q.inTransmission = true →
    exec .noticeSent s = .next (State.occupancyFell (State.count { s with bus := { s.bus with
      queue := before ++ after, tx := .waiting
      yieldCount := min s.sc.config.yieldBurst (s.bus.yieldCount + 1), idle := 0 } } .noticesSent)))
  ∧ (∀ s : State, (∀ i e, s.entry? i = some e → e.claimOwed = false) → s.occupancyFell =
      { s with bus := { s.bus with mode := if s.bus.queue.length ≤ 8 then .opened else s.bus.mode } })
  ∧ (∀ (s : State) (i : Nat) (e : Entry), s.occupancyFell.entry? i = some e → e.claimOwed = true →
      (∀ j f, j < i → s.occupancyFell.entry? j = some f → f.claimOwed = false) →
      s.occupancyFell.admits (s.occupancyFell.claimOf e) = false)
  ∧ (∀ (s u : State) (i : Nat) (e : Entry),
      u = { s with bus := { s.bus with mode := if s.bus.queue.length ≤ 8 then .opened else s.bus.mode } } →
      s.entry? i = some e → e.claimOwed = true → (∀ j f, j < i → s.entry? j = some f → f.claimOwed = false) →
      (u.admits (u.claimOf e) = true → s.occupancyFell = (u.offerClaim i).occupancyFell)
      ∧ (u.admits (u.claimOf e) = false → s.occupancyFell = u))
  ∧ (∀ (idle : Nat) (s : State), s.bus.tx = .waiting →
      exec (.yieldTimeExpiry idle) s = .next { s with bus := { s.bus with
        idle := s.bus.idle + idle
        yieldCount := if s.sc.config.yieldBurst ≤ s.bus.yieldCount ∧ s.sc.config.yieldTime ≤ s.bus.idle + idle then 0
          else s.bus.yieldCount } })
  ∧ (∀ s : State, s.bus.tx = .waiting → exec .noticeSent s = .next s)
  ∧ (∀ (idle : Nat) (s : State), s.bus.tx ≠ .waiting → exec (.yieldTimeExpiry idle) s = .next s)

/-- R113, R121, R122, R191: NOTICE_HEARD. The model's own reading: log 6, log 24. -/
def Obligations.NoticeHeardIsTakenOrNot : Prop :=
  ∀ (length : Nat) (w : NoticeWord) (s u v : State), u = { s with bus := { s.bus with idle := 0 } } →
    v = { s with bus := { s.bus with idle := 0, yieldCount := 0 } } →
    (s.joined = false → exec (.noticeHeard length w) s = .next u)
    ∧ (s.bus.tx ≠ .waiting → exec (.noticeHeard length w) s = .next u)
    ∧ (s.joined = true → s.bus.tx = .waiting →
        (length < 112 ∨ checkPasses w = false ∨ wordSender w = s.sc.config.stationNumber →
          exec (.noticeHeard length w) s = .next (u.count .noticesDiscarded))
        ∧ (112 ≤ length → checkPasses w = true → wordSender w ≠ s.sc.config.stationNumber →
            (Notice.decode w = none → exec (.noticeHeard length w) s = .next (v.count .noticesDiscarded))
            ∧ (∀ n, Notice.decode w = some n →
                ((n.isReply = true ∧ n.dest ≠ 0 ∧ n.dest ≠ s.sc.config.stationNumber) →
                  exec (.noticeHeard length w) s = .next v)
                ∧ (¬(n.isReply = true ∧ n.dest ≠ 0 ∧ n.dest ≠ s.sc.config.stationNumber) → s.bus.rx.length < 8 →
                  exec (.noticeHeard length w) s = .next
                    (State.count { v with bus := { v.bus with rx := s.bus.rx ++ [n] } } .noticesReceived))
                ∧ (¬(n.isReply = true ∧ n.dest ≠ 0 ∧ n.dest ≠ s.sc.config.stationNumber) → 8 ≤ s.bus.rx.length →
                  exec (.noticeHeard length w) s = .next (v.count .noticesDiscarded)))))

/-- R86, R115 to R118: admission to the transmit queue. -/
def Obligations.NoticeAdmission : Prop :=
  (∀ (n : Notice) (s : State), s.serving = false → s.admits n = false ∧ s.offer n = s)
  ∧ (∀ (n : Notice) (s : State), s.serving = true → n.kindClass = .enquiry → s.bus.mode = .pressed →
      s.admits n = false ∧ s.offer n = if n.isHere then s.count .enquiriesDropped else s)
  ∧ (∀ (n : Notice) (s : State), s.serving = true → ¬(n.kindClass = .enquiry ∧ s.bus.mode = .pressed) →
      (∀ k, s.coalescePlace? n = some k → s.admits n = true
        ∧ s.offer n = { s with bus := { s.bus with queue := s.bus.queue.modify k fun q => { q with notice := n } } })
      ∧ (s.coalescePlace? n = none →
          s.bus.queue.length < (if n.kindClass = .completion then 16 else 14) →
          s.admits n = true
          ∧ s.offer n = { s with bus := { s.bus with
              queue := s.bus.queue ++ [{ notice := n, inTransmission := false, condemned := false }]
              mode := if 12 ≤ s.bus.queue.length + 1 then .pressed else s.bus.mode } })
      ∧ (s.coalescePlace? n = none →
          (if n.kindClass = .completion then 16 else 14) ≤ s.bus.queue.length →
          s.admits n = false ∧ s.offer n = if n.isHere then s.count .enquiriesDropped else s))
  ∧ (∀ (n : Notice) (k : Nat) (s : State), s.coalescePlace? n = some k ↔
      (∃ q, s.bus.queue[k]? = some q ∧ q.inTransmission = false ∧ n.coalescesWith q.notice = true)
      ∧ ∀ j q, j < k → s.bus.queue[j]? = some q → q.inTransmission = true ∨ n.coalescesWith q.notice = false)
  ∧ (∀ n m : Notice, n.coalescesWith m = true ↔
      n.handset = m.handset
      ∧ ((∃ a b, n.body = .claim a ∧ m.body = .claim b)
        ∨ ((∃ k o f k' o' f', n.body = .offer k o f ∧ m.body = .offer k' o' f') ∧ n.dest = m.dest)
        ∨ ((∃ k f k' f', n.body = .here k f ∧ m.body = .here k' f') ∧ n.dest = m.dest)))
  ∧ (∀ (i : Nat) (e : Entry) (n : Notice) (s : State), s.entry? i = some e →
      n = { sender := s.sc.config.stationNumber, dest := 0, handset := e.handset, stamp := e.stamp, mark := s.tb.mark
            body := .claim e.engaged } →
      s.offerClaim i = (s.offer n).setEntry i (some { e with claimOwed := !s.admits n }))

/-- R129, R130: OFFER_RECEIVED; R133: DECLINE_RECEIVED; R135, R136: TAKE_RECEIVED. R33: a standing MOVE is set, in the place of
one for the same slot. The model's own reading: log 10, log 14. -/
def Obligations.RepliesReachTheirRecord : Prop :=
  (∀ (n : Notice) (rest : List Notice) (seek : BitVec 8) (merit free : Nat) (s d : State), s.serving = true →
    s.bus.rx = n :: rest → n.dest = 0 ∨ n.dest = s.sc.config.stationNumber → n.body = .offer seek merit free →
    d = { s with bus := { s.bus with rx := rest } } →
    (∀ r o m l, s.outFor? n.handset seek = some (r, o) → o.phase = .seeking m l →
      exec .offerReceived s = .next (d.setOut r (some { o with
        phase := .seeking m (enterCandidate { station := n.sender, merit := min 1008 merit, freeSlots := free } l) })))
    ∧ (s.outFor? n.handset seek = none → exec .offerReceived s = .next d)
    ∧ (∀ r o, s.outFor? n.handset seek = some (r, o) → o.phase.code ≠ 1 → exec .offerReceived s = .next d))
  ∧ (∀ (c : Candidate) (l : List Candidate), CandidatesOrdered l → (l.map (·.station)).Nodup →
      CandidatesOrdered (enterCandidate c l) ∧ ((enterCandidate c l).map (·.station)).Nodup
      ∧ (enterCandidate c l).length ≤ 3
      ∧ (∀ x, x ∈ enterCandidate c l → x = c ∨ (x ∈ l ∧ x.station ≠ c.station))
      ∧ ∀ x, x = c ∨ (x ∈ l ∧ x.station ≠ c.station) → x ∈ enterCandidate c l ∨ ((enterCandidate c l).length = 3
          ∧ ∀ y ∈ enterCandidate c l, x.merit < y.merit ∨ (x.merit = y.merit ∧ y.station < x.station)))
  ∧ (∀ (n : Notice) (rest : List Notice) (seek : BitVec 8) (reason : DeclineReason) (s d : State), s.serving = true →
    s.bus.rx = n :: rest → n.dest = 0 ∨ n.dest = s.sc.config.stationNumber → n.body = .decline seek reason →
    d = { s with bus := { s.bus with rx := rest } } →
    (∀ r o e l m k, s.outFor? n.handset seek = some (r, o) → o.phase = .asking l n.sender m k → s.entry? o.entry = some e →
      exec .declineReceived s = .next
        (askFrom r o e (l.filter fun c => c.station != n.sender) reason.reason n.sender s).dropReceived)
    ∧ (∀ r o l target m k, s.outFor? n.handset seek = some (r, o) → o.phase = .asking l target m k → target ≠ n.sender →
      exec .declineReceived s = .next d)
    ∧ (∀ r o, s.outFor? n.handset seek = some (r, o) → o.phase.code ≠ 2 → exec .declineReceived s = .next d)
    ∧ (s.outFor? n.handset seek = none → exec .declineReceived s = .next d))
  ∧ (∀ (n : Notice) (rest : List Notice) (seek : BitVec 8) (nc : Cell) (s d : State), s.serving = true →
    s.bus.rx = n :: rest → n.dest = 0 ∨ n.dest = s.sc.config.stationNumber → n.body = .take seek nc →
    d = { s with bus := { s.bus with rx := rest } } →
    (∀ r o e c tag k l x, s.outFor? n.handset seek = some (r, o) → o.phase = .asking l n.sender n.mark x → nc.slot ≠ 0 →
      s.entry? o.entry = some e → e.phase = .inCall c tag k →
      (s.tb.within n.mark 1 128 = true → s.changeRefusal? (heldChange c e.handset n.mark) = none →
        exec .takeReceived s = .next
          ((((d.admitChange (heldChange c e.handset n.mark)).setEntry o.entry (some { e with phase := .leaving c tag k })).setOut
            r (some { o with phase := .switching n.sender n.mark nc })).setMove
              { slot := c.slot, handset := e.handset, target := n.sender, newCell := nc, switchMark := n.mark }))
      ∧ (s.tb.within n.mark 1 128 = false ∨ s.changeRefusal? (heldChange c e.handset n.mark) ≠ none →
        exec .takeReceived s = .next (d.failAttempt r .late n.sender)))
    ∧ (∀ r o l target m x, s.outFor? n.handset seek = some (r, o) → o.phase = .asking l target m x →
        (target ≠ n.sender ∨ n.mark ≠ m ∨ nc.slot = 0) → exec .takeReceived s = .next d)
    ∧ (∀ r o, s.outFor? n.handset seek = some (r, o) → o.phase.code ≠ 2 → exec .takeReceived s = .next d)
    ∧ (s.outFor? n.handset seek = none → exec .takeReceived s = .next d))
  ∧ (∀ (s : State) (m : Move),
      s.setMove m = { s with sp := { s.sp with moves := s.sp.moves.filter (fun x => x.slot != m.slot) ++ [m] } })

/-- R81 to R85: supersession; R83, R140: CLAIM_RECEIVED. The model's own reading: log 10, log 16. -/
def Obligations.ClaimsSupersedeOrSucceed : Prop :=
  (∀ (n : Notice) (s : State), s.find? n.handset = none → s.supersede n = s)
  ∧ (∀ (n : Notice) (i : Nat) (e : Entry) (s : State), s.find? n.handset = some (i, e) →
      (n.stamp.newer e.stamp = true → e.engaged = false →
        s.supersede n = (s.freeEntry i).post .detached n.handset n.sender 0 .superseded)
      ∧ (n.stamp.newer e.stamp = true → e.engaged = true →
        s.supersede n =
          (((s.releaseCall i e).freeEntry i).post .detached n.handset n.sender e.tag .supersededCall).drainTest)
      ∧ (n.stamp = e.stamp → s.supersede n = s.post .stampConflict n.handset n.sender e.tag .equal)
      ∧ (n.stamp.older e.stamp = true → e.stamp.older n.stamp = true →
        s.supersede n = s.post .stampConflict n.handset n.sender e.tag .opposed)
      ∧ (n.stamp.older e.stamp = true → e.stamp.older n.stamp = false →
        s.supersede n = if e.isLeaving || e.isArriving then s else s.offerClaim i))
  ∧ (∀ (n : Notice) (rest : List Notice) (f : Bool) (s : State), s.serving = true → s.bus.rx = n :: rest → n.body = .claim f →
      (∀ i e c tag k r o, s.find? n.handset = some (i, e) → e.phase = .leaving c tag k → s.outOf i = some r →
        s.outRecord? r = some o → o.phase.target? = some n.sender → n.stamp = e.stamp.nextHop →
        exec .claimReceived s = .next
          (((((((s.freeSlot c.slot).post .handedOut n.handset n.sender tag .none).count .handoversOut).freeEntry i).setOut r
            none).drainTest).dropReceived))
      ∧ ((∀ i e, s.find? n.handset = some (i, e) → e.isLeaving = false ∨ n.stamp ≠ e.stamp.nextHop
            ∨ ∀ r o, s.outOf i = some r → s.outRecord? r = some o → o.phase.target? ≠ some n.sender) →
          exec .claimReceived s = .next (s.supersede n).dropReceived))

/-- R83, R151 to R154: TRANSFER_RECEIVED. The model's own reading: log 10, log 15, log 17. -/
def Obligations.TransferIsTakenOrDeclined : Prop :=
  (∀ (n : Notice) (s : State),
    (s.sc.station ≠ .active → s.transferRefusal? n = some .leaving)
    ∧ (s.sc.station = .active → s.tb.known = false → s.transferRefusal? n = some .noSync)
    ∧ (s.sc.station = .active → s.tb.known = true →
        (s.tb.within n.mark 2 128 = false → s.transferRefusal? n = some .late)
        ∧ (s.tb.within n.mark 2 128 = true →
            (∀ i e, s.find? n.handset = some (i, e) → n.stamp.newer e.stamp = false →
              s.transferRefusal? n = some .stale)
            ∧ ((∀ i e, s.find? n.handset = some (i, e) → n.stamp.newer e.stamp = true) →
                (s.fresh n.handset = false → s.transferRefusal? n = some .notHeard)
                ∧ (s.fresh n.handset = true → s.freeIn = none → s.transferRefusal? n = some .busy)
                ∧ (s.fresh n.handset = true → s.freeIn ≠ none → s.freeIndex = none → s.transferRefusal? n = some .full)
                ∧ (s.fresh n.handset = true → s.freeIn ≠ none → s.freeIndex ≠ none → s.transferRefusal? n = none)))))
  ∧ (∀ (n : Notice) (rest : List Notice) (seek : BitVec 8) (tag : Tag) (s : State), s.serving = true →
      s.bus.rx = n :: rest → n.body = .transfer seek tag →
      (n.dest ≠ 0 → n.dest ≠ s.sc.config.stationNumber →
        exec .transferReceived s = .next (s.supersede n).dropReceived)
      ∧ (n.dest = 0 ∨ n.dest = s.sc.config.stationNumber →
          (∀ reason, s.transferRefusal? n = some reason ∨ (s.transferRefusal? n = none ∧ s.selectCell = none
              ∧ reason = .noBearer) →
            exec .transferReceived s = .next
              (s.offer { sender := s.sc.config.stationNumber, dest := n.sender, handset := n.handset, stamp := n.stamp
                         mark := s.tb.mark, body := .decline seek reason }).dropReceived)
          ∧ (∀ c o i r take v, s.transferRefusal? n = none → s.selectCell = some c → s.overheard? n.handset = some o →
              s.freeIndex = some i → s.freeIn = some r → v = s.moveCursor c →
              take = ({ sender := s.sc.config.stationNumber, dest := n.sender, handset := n.handset, stamp := n.stamp
                        mark := n.mark, body := .take seek c } : Notice) →
              (v.admits take = false → exec .transferReceived s = .next v.dropReceived)
              ∧ (v.admits take = true → exec .transferReceived s = .next
                  (((((((v.offer take).becomesHeld n.handset).setEntry i (some {
                        handset := n.handset, stamp := n.stamp.nextHop, phase := .arriving c tag, level := o.level
                        armed := false, holdoff := 0, claimOwed := false })).commit c.slot
                      (.reserved c.carrier n.handset)).requestChange
                        { slot := c.slot, entry := .bearer c.carrier n.handset, mark := n.mark, requester := .receivingSide
                          }).setIn r (some {
                    entry := i, handset := n.handset, source := n.sender, seek := seek, cell := c, switchMark := n.mark
                    phase := .reserved })).dropReceived)))))

/-- R81, R148, R149, R64: SEEK_RECEIVED; R81, R88: HERE_RECEIVED; R89: FIND_RECEIVED. The last clause, that a row for received
notices changes nothing when the receive queue is empty or its oldest notice is of another kind, is the model's own choice. The
model's own reading: log 10. -/
def Obligations.QuestionsAreAnswered : Prop :=
  (∀ (n : Notice) (rest : List Notice) (seek : BitVec 8) (c : Cell) (m : Nat) (s v : State), s.serving = true →
    s.bus.rx = n :: rest → n.body = .seek seek c m → v = s.supersede n →
    (v.isActive = false ∨ v.tb.within n.mark 1 128 = false ∨ v.isHeld n.handset = true ∨ v.hasAllocatable = false →
      exec .seekReceived s = .next v.dropReceived)
    ∧ (v.isActive = true → v.tb.within n.mark 1 128 = true → v.isHeld n.handset = false → v.hasAllocatable = true →
        (∀ o, v.overheard? n.handset = some o → o.age ≤ 8 → exec .seekReceived s = .next
          (if v.sc.config.offerFloor ≤ v.offerMeritOf o then
            v.offer { sender := v.sc.config.stationNumber, dest := n.sender, handset := n.handset, stamp := n.stamp
                      mark := v.tb.mark, body := .offer seek (v.offerMeritOf o) (15 - v.committed) }
          else v).dropReceived)
        ∧ (v.fresh n.handset = false → exec .seekReceived s = .next
            (v.registerListen { handset := n.handset, cell := c, seeker := n.sender, seek := seek, replyBy := n.mark
                                stamp := n.stamp }).dropReceived)))
  ∧ (∀ (r : ListenRequest) (s : State), s.tb.within r.replyBy 1 128 = true → s.isHeld r.handset = false →
      (¬(1 ≤ r.cell.slot ∧ r.cell.slot ≤ 15) → s.registerListen r = s)
      ∧ (1 ≤ r.cell.slot → r.cell.slot ≤ 15 → (∃ x ∈ s.mu.listens, x.seeker = r.seeker ∧ x.handset = r.handset) →
          s.registerListen r = { s with mu := { s.mu with
            listens := s.mu.listens.map fun x => if x.seeker = r.seeker ∧ x.handset = r.handset then r else x } })
      ∧ (1 ≤ r.cell.slot → r.cell.slot ≤ 15 → (∀ x ∈ s.mu.listens, ¬(x.seeker = r.seeker ∧ x.handset = r.handset)) →
          s.registerListen r =
            if s.mu.listens.length < 8 then { s with mu := { s.mu with listens := s.mu.listens ++ [r] } } else s))
  ∧ (∀ (n : Notice) (rest : List Notice) (number : BitVec 8) (inCall : Bool) (s v : State), s.serving = true →
      s.bus.rx = n :: rest → n.body = .here number inCall → v = s.supersede n →
      ((n.dest ≠ 0 ∧ n.dest ≠ s.sc.config.stationNumber) ∨ v.findFor n.handset = none →
        exec .hereReceived s = .next v.dropReceived)
      ∧ (∀ r f, n.dest = 0 ∨ n.dest = s.sc.config.stationNumber → v.findFor n.handset = some r →
          v.findRecord? r = some f →
          (f.number ≠ number → exec .hereReceived s = .next v.dropReceived)
          ∧ (f.number = number → exec .hereReceived s = .next
              (v.setFind r (some { f with answer := some (match f.answer with
                | none => { station := n.sender, stamp := n.stamp, inCall := inCall }
                | some b => if n.stamp.newer b.stamp then { station := n.sender, stamp := n.stamp, inCall := inCall }
                    else b) })).dropReceived)))
  ∧ (∀ (n : Notice) (rest : List Notice) (number : BitVec 8) (s : State), s.serving = true →
      s.bus.rx = n :: rest → n.body = .find number →
      (s.find? n.handset = none → exec .findReceived s = .next s.dropReceived)
      ∧ (∀ i e, s.find? n.handset = some (i, e) →
          exec .findReceived s = .next
            (if e.isArriving then s
              else s.offer { sender := s.sc.config.stationNumber, dest := n.sender, handset := n.handset, stamp := e.stamp
                             mark := s.tb.mark, body := .here number e.engaged }).dropReceived))
  ∧ (∀ (row : Instr) (s : State), row ∈ [Instr.takeReceived, .declineReceived, .claimReceived, .transferReceived
      , .offerReceived, .seekReceived, .hereReceived, .findReceived] →
    s.bus.rx = [] ∨ (∃ n rest, s.bus.rx = n :: rest ∧ rowOf n.body ≠ row) → exec row s = .next s)

/-- R125: a LISTENING station, whose tables are empty, hands no notice on: each leaves the receive queue and changes nothing
else. R122, R124: so does a TAKE, DECLINE or OFFER for another station. That a station that has not joined, whose receive queue
R126 leaves empty, only takes the notice out is the model's own choice. The model's own reading: log 10. -/
def Obligations.NoticesNotHandedOnOnlyLeaveTheQueue : Prop :=
  (∀ (n : Notice) (rest : List Notice) (s : State), s.sc.station = .listening → s.EmptyOutOfService → s.bus.rx = n :: rest →
    exec (rowOf n.body) s = .next { s with bus := { s.bus with rx := rest } })
  ∧ (∀ (n : Notice) (rest : List Notice) (s : State), s.joined = false → s.bus.rx = n :: rest →
    exec (rowOf n.body) s = .next { s with bus := { s.bus with rx := rest } })
  ∧ (∀ (n : Notice) (rest : List Notice) (s : State), s.serving = true → s.bus.rx = n :: rest → n.isReply = true →
    n.dest ≠ 0 → n.dest ≠ s.sc.config.stationNumber →
    exec (rowOf n.body) s = .next { s with bus := { s.bus with rx := rest } })

/-! ### The host -/

/-- R178: what every answer does to the Host Link, and nothing else. R167, R168: CONFIGURE. R169, R170: JOIN, the whole of
what it leaves. R36: the plan in force is kept. R112, R126: the transmit queue is discarded as at a drain completion.
The model's own reading: log 9. -/
def Obligations.ConfigureAndJoin : Prop :=
  (∀ (s : State) (command : Byte) (code : ResponseCode), s.answer command code =
    { s with hl := { s.hl with
        response := { command := command, code := code, index := 0, body := .empty }
        shifted := some { response := s.hl.response, bytes := 64 } } })
  ∧ (∀ (w : ConfigWord) (s : State),
      (s.sc.station = .unconfigured ∨ s.sc.station = .configured → exec (.configure w) s = .next
        (State.answer { s with sc := { s.sc with station := .configured, config := configOfWord w } } 1 .done))
      ∧ (s.joined = true → exec (.configure w) s = .next (s.answer 1 .busy))
      ∧ ConfigRecord.InRange (configOfWord w) ∧ (configOfWord w).stationNumber = (w.extractLsb' 272 8).toNat)
  ∧ (∀ lo hi v : Nat, lo ≤ hi →
      (v < lo → clamp lo hi v = lo) ∧ (hi < v → clamp lo hi v = hi) ∧ (lo ≤ v → v ≤ hi → clamp lo hi v = v))
  ∧ (∀ s : State,
      (s.sc.station = .unconfigured → exec .join s = .next
        (s.respond { command := 2, code := .configError, index := 1, body := .empty }))
      ∧ (s.joined = true → exec .join s = .next (s.answer 2 .busy))
      ∧ (∀ k, s.sc.station = .configured → joinFailure? s.sc.config = some k → exec .join s = .next
          (s.respond { command := 2, code := .configError, index := k, body := .empty }))
      ∧ (s.sc.station = .configured → joinFailure? s.sc.config = none → ∃ t, exec .join s = .next t
          ∧ t = { State.answer s 2 .done with
              sp := { s.sp with
                plan := Vector.replicate 16 .free, changes := [], moves := [], beaconQ := []
                cursor := s.sc.config.scanFirstCarrier }
              mu := { map := Vector.replicate 120 1008, overheard := [], listens := [] }
              rc := { s.rc with table := Vector.replicate 64 none, finds := Vector.replicate 4 none }
              cc := { s.cc with
                allocCursor := { slot := s.sc.config.scanFirstSlot, carrier := s.sc.config.scanFirstCarrier }
                setups := [], pages := [], rotation := none }
              he := { s.he with outbound := Vector.replicate 4 none, inbound := Vector.replicate 4 none }
              bus := s.bus.clear
              sc := { s.sc with station := .listening, quiet := some s.sc.config.quietPeriod, drain := none } }
          ∧ t.sc = { s.sc with station := .listening, quiet := some s.sc.config.quietPeriod, drain := none }
          ∧ (∀ c, t.interference c = 1008) ∧ t.mu.overheard = [] ∧ t.EmptyOutOfService ∧ t.bus.rx = []
          ∧ t.bus.yieldCount = 0 ∧ t.bus.mode = .opened ∧ (∀ q ∈ t.bus.queue, q.inTransmission = true)
          ∧ t.sp.cursor = s.sc.config.scanFirstCarrier
          ∧ t.cc.allocCursor = { slot := s.sc.config.scanFirstSlot, carrier := s.sc.config.scanFirstCarrier }
          ∧ t.tb = s.tb ∧ t.hl = (s.answer 2 .done).hl ∧ t.he.seekNumber = s.he.seekNumber
          ∧ t.rc.findNumber = s.rc.findNumber ∧ t.cc.tagSeq = s.cc.tagSeq))
  ∧ (∀ c : ConfigRecord,
      (joinFailure? c = none ↔ (1 ≤ c.stationNumber ∧ c.stationNumber ≤ 48) ∧ c.scanFirstCarrier ≤ c.scanLastCarrier
        ∧ c.scanFirstSlot ≤ c.scanLastSlot ∧ c.takeTimeout + 2 ≤ c.lead ∧ c.offerWindow < c.lead)
      ∧ (joinFailure? c = some 1 ↔ ¬(1 ≤ c.stationNumber ∧ c.stationNumber ≤ 48))
      ∧ ((1 ≤ c.stationNumber ∧ c.stationNumber ≤ 48) →
        (c.scanLastCarrier < c.scanFirstCarrier → joinFailure? c = some 2)
        ∧ (c.scanFirstCarrier ≤ c.scanLastCarrier →
          (c.scanLastSlot < c.scanFirstSlot → joinFailure? c = some 3)
          ∧ (c.scanFirstSlot ≤ c.scanLastSlot →
            (c.lead < c.takeTimeout + 2 → joinFailure? c = some 4)
            ∧ (c.takeTimeout + 2 ≤ c.lead → c.lead ≤ c.offerWindow → joinFailure? c = some 5)))))
  ∧ (∀ (w : ConfigWord) (byte pair : Nat → Nat), (∀ k, byte k = (w.extractLsb' (8 * (34 - k)) 8).toNat) →
      (∀ k, pair k = 256 * byte k + byte (k + 1)) → configOfWord w =
        { stationNumber := byte 0, beaconCarrier := clamp 0 7 (byte 1), scanFirstCarrier := clamp 0 7 (byte 2)
          scanLastCarrier := clamp 0 7 (byte 3), scanFirstSlot := clamp 1 15 (byte 4), scanLastSlot := clamp 1 15 (byte 5)
          scanOrder := if byte 6 = 0 then .aligned else .staggered, filterShift := clamp 1 4 (byte 7)
          errorPenalty := clamp 0 7 (byte 8), triggerThreshold := clamp 0 1008 (pair 9), hysteresis := clamp 0 255 (byte 11)
          collapseCount := clamp 2 8 (byte 12), dropCount := clamp 10 255 (byte 13), handoverMargin := clamp 0 255 (byte 14)
          offerFloor := clamp 0 1008 (pair 15), loadWeight := clamp 0 3 (byte 17), cleanLimit := clamp 0 1008 (pair 18)
          offerWindow := clamp 2 15 (byte 20), takeTimeout := clamp 1 15 (byte 21), lead := clamp 4 64 (byte 22)
          arrivalWindow := clamp 1 15 (byte 23), fallbackWindow := clamp 1 31 (byte 24), holdoff := clamp 1 255 (byte 25)
          overheardLife := clamp 8 255 (byte 26), idleExpiry := clamp 1 255 (byte 27), pageTimeout := clamp 8 255 (byte 28)
          findWindow := clamp 2 15 (byte 29), quietPeriod := clamp 16 255 (byte 30), yieldBurst := clamp 1 8 (byte 31)
          yieldTime := clamp 16 1024 (pair 32), drainLimit := clamp 1 255 (byte 34) })

/-- R172, R173: LEAVE. R176: RESTART, the whole of what it leaves. R36: the plan in force is kept until the next strobe. The model's own reading: log 9, log 16. -/
def Obligations.LeaveAndRestart : Prop :=
  (∀ s : State,
    (s.sc.station = .active → exec .leave s = .next
      ((State.drainTest { s with sc := { s.sc with station := .draining, drain := some s.sc.config.drainLimit } }).answer 3
        .done))
    ∧ (s.sc.station = .listening → ∃ t, exec .leave s = .next t
        ∧ t = { State.answer s 3 .done with
            mu := { s.mu with overheard := [], listens := [] }, bus := s.bus.clear
            sc := { s.sc with station := .configured, quiet := none } }
        ∧ t.bus.rx = [] ∧ t.bus.mode = .opened ∧ t.bus.yieldCount = 0 ∧ (∀ q ∈ t.bus.queue, q.inTransmission = true))
    ∧ (s.sc.station = .unconfigured ∨ s.sc.station = .configured ∨ s.sc.station = .draining →
        exec .leave s = .next (s.answer 3 .busy)))
  ∧ (∀ s : State,
    (s.sc.station = .unconfigured → exec .restart s = .next (s.answer 4 .busy))
    ∧ (s.sc.station ≠ .unconfigured → ∃ t, exec .restart s = .next t
        ∧ t = { s with
            sp := { s.sp with plan := Vector.replicate 16 .free, changes := [], moves := [], beaconQ := [] }
            mu := { map := Vector.replicate 120 1008, overheard := [], listens := [] }
            rc := { s.rc with table := Vector.replicate 64 none, finds := Vector.replicate 4 none }
            cc := { s.cc with setups := [], pages := [], rotation := none }
            he := { s.he with outbound := Vector.replicate 4 none, inbound := Vector.replicate 4 none }
            bus := s.bus.clear
            sc := { s.sc with station := .configured, quiet := none, drain := none }
            hl := { (s.answer 4 .done).hl with events := [], lost := 0 } }
        ∧ t.sc = { s.sc with station := .configured, quiet := none, drain := none }
        ∧ t.EmptyOutOfService ∧ (∀ c, t.interference c = 1008) ∧ t.mu.overheard = []
        ∧ t.bus.rx = [] ∧ t.bus.mode = .opened ∧ t.bus.yieldCount = 0 ∧ (∀ q ∈ t.bus.queue, q.inTransmission = true)
        ∧ t.hl = { (s.answer 4 .done).hl with events := [], lost := 0 }
        ∧ t.tb = s.tb ∧ t.sp.cursor = s.sp.cursor ∧ t.cc.allocCursor = s.cc.allocCursor ∧ t.cc.tagSeq = s.cc.tagSeq
        ∧ t.he.seekNumber = s.he.seekNumber ∧ t.rc.findNumber = s.rc.findNumber))

/-- R99: PAGE; R104: CLEAR CALL; R87: LOCATE. The model's own reading: log 15, log 16, log 20. -/
def Obligations.PageClearAndLocate : Prop :=
  (∀ (h : Handset) (tag : Tag) (s : State),
    (h = 0 → exec (.page h tag) s = .next (s.answer 5 .badCommand))
    ∧ (h ≠ 0 → s.sc.station ≠ .active → exec (.page h tag) s = .next (s.answer 5 .notActive))
    ∧ (h ≠ 0 → s.sc.station = .active → s.find? h = none → exec (.page h tag) s = .next (s.answer 5 .notHere))
    ∧ (∀ i e, h ≠ 0 → s.sc.station = .active → s.find? h = some (i, e) →
        (e.engaged = true → exec (.page h tag) s = .next (s.answer 5 .busy))
        ∧ (∀ p, e.engaged = false → s.page? h = some p → exec (.page h tag) s = .next
            (State.answer { s with cc := { s.cc with pages := s.cc.pages.map fun q =>
              if q.handset == h then { q with tag := tag, remaining := s.sc.config.pageTimeout } else q } } 5 .done))
        ∧ (e.engaged = false → s.page? h = none → 8 ≤ s.cc.pages.length →
            exec (.page h tag) s = .next (s.answer 5 .pageFull))
        ∧ (e.engaged = false → s.page? h = none → s.cc.pages.length < 8 → exec (.page h tag) s = .next
            (State.answer { s with cc := { s.cc with
              pages := s.cc.pages ++ [{ handset := h, tag := tag, remaining := s.sc.config.pageTimeout }]
              rotation := if s.cc.pages = [] then some h else s.cc.rotation } } 5 .done))))
  ∧ (∀ (h : Handset) (s : State),
    (h = 0 → exec (.clearCall h) s = .next (s.answer 6 .badCommand))
    ∧ (h ≠ 0 → s.serving = false → exec (.clearCall h) s = .next (s.answer 6 .notActive))
    ∧ (h ≠ 0 → s.serving = true → s.find? h = none → exec (.clearCall h) s = .next (s.answer 6 .notHere))
    ∧ (∀ i e, h ≠ 0 → s.serving = true → s.find? h = some (i, e) →
        (e.isLeaving = true ∨ e.isArriving = true → exec (.clearCall h) s = .next (s.answer 6 .inTransit))
        ∧ (e.isIdle = true → exec (.clearCall h) s = .next (s.answer 6 .noCall))
        ∧ (∀ c t k, e.phase = .setup c t k ∨ e.phase = .inCall c t k → exec (.clearCall h) s = .next
            ((((((((s.freeSlot c.slot).dropSetup i).dropOut i).dropIn i).setEntry i (some { e with phase := .idle 0 })).post
              .callDown h 0 t .host).drainTest).answer 6 .done))))
  ∧ (∀ (h : Handset) (s : State),
    (h = 0 → exec (.locate h) s = .next (s.answer 7 .badCommand))
    ∧ (h ≠ 0 → s.sc.station ≠ .active → exec (.locate h) s = .next (s.answer 7 .notActive))
    ∧ (∀ i e, h ≠ 0 → s.sc.station = .active → s.find? h = some (i, e) → exec (.locate h) s = .next
        ((s.post .located h s.sc.config.stationNumber (e.stamp.epoch ++ e.stamp.hop)
          (if e.engaged then .foundInCall else .foundIdle)).answer 7 .done))
    ∧ (h ≠ 0 → s.sc.station = .active → s.find? h = none →
        (s.findFor h ≠ none → exec (.locate h) s = .next (s.answer 7 .already))
        ∧ (s.findFor h = none → s.freeFind = none → exec (.locate h) s = .next (s.answer 7 .findFull))
        ∧ (∀ r, s.findFor h = none → s.freeFind = some r →
            (s.admits (s.findNotice h) = false → exec (.locate h) s = .next (s.answer 7 .queuePressed))
            ∧ (s.admits (s.findNotice h) = true → exec (.locate h) s = .next
                (State.answer { s.offer (s.findNotice h) with
                  rc := { s.rc with
                    findNumber := s.rc.findNumber + 1
                    finds := s.rc.finds.setIfInBounds r (some {
                      handset := h, number := s.rc.findNumber, remaining := s.sc.config.findWindow, answer := none }) }
                  drawn := s.drawn + 1 } 7 .done)))))
  ∧ (∀ (h : Handset) (s : State), ∃ stamp, s.findNotice h =
      { sender := s.sc.config.stationNumber, dest := 0, handset := h, stamp := stamp, mark := s.tb.mark
        body := .find s.rc.findNumber })

/-- R180 to R183: QUERY HANDSET, READ ENTRY and READ STATUS change only the pending response. -/
def Obligations.ReadsReportTheState : Prop :=
  (∀ (s : State) (command : Byte) (body : ResponseBody), s.report command body =
    { s with hl := { s.hl with
        response := { command := command, code := .done, index := 0, body := body }
        shifted := some { response := s.hl.response, bytes := 64 } } })
  ∧ (∀ (h : Handset) (s : State),
      (h = 0 → exec (.queryHandset h) s = .next (s.answer 8 .badCommand))
      ∧ (∀ i e, h ≠ 0 → s.find? h = some (i, e) → exec (.queryHandset h) s = .next (s.report 8 (.held
          { index := i, entry := e, merit := e.merit s.sc.config, setup := s.setup? i
            outbound := (s.outOf i).bind s.outRecord?, inbound := (s.inOf i).bind s.inRecord?, page := s.page? h
            find := (s.findFor h).bind s.findRecord? })))
      ∧ (∀ o, h ≠ 0 → s.find? h = none → s.overheard? h = some o →
          exec (.queryHandset h) s = .next (s.report 8 (.overheard o)))
      ∧ (h ≠ 0 → s.find? h = none → s.overheard? h = none → exec (.queryHandset h) s = .next (s.report 8 .notHeard)))
  ∧ (∀ (index : Byte) (s : State),
      (64 ≤ index.toNat → exec (.readEntry index) s = .next (s.answer 9 .badCommand))
      ∧ (index.toNat < 64 → s.entry? index.toNat = none → exec (.readEntry index) s = .next (s.report 9 .freeEntry))
      ∧ (∀ e, s.entry? index.toNat = some e → exec (.readEntry index) s = .next (s.report 9 (.held
          { index := index.toNat, entry := e, merit := e.merit s.sc.config, setup := s.setup? index.toNat
            outbound := (s.outOf index.toNat).bind s.outRecord?, inbound := (s.inOf index.toNat).bind s.inRecord?
            page := none, find := none }))))
  ∧ (∀ s : State, exec .readStatus s = .next (s.report 10 (.status
      { station := s.sc.station, known := s.tb.known, mark := s.tb.mark, frames := s.tb.frames
        entriesUsed := s.rc.table.toList.countP Option.isSome, committed := s.committed
        outboundUsed := s.he.outbound.toList.countP Option.isSome, inboundUsed := s.he.inbound.toList.countP Option.isSome
        occupancy := s.bus.queue.length, mode := s.bus.mode, events := s.hl.events.length, lost := s.hl.lost })))

/-- R190: the response record, the body of every answer byte by byte, and what is shifted out beyond the 64th byte. -/
def Obligations.HostRecordsAreLaidOut : Prop :=
  (∀ r : Response, r.record.length = 64 ∧ r.body.record.length ≤ 61
      ∧ r.record = [r.command, r.code.byte, BitVec.ofNat 8 r.index] ++ r.body.record
          ++ List.replicate (61 - r.body.record.length) 0)
  ∧ ([ResponseCode.done, .busy, .configError, .notActive, .notHere, .pageFull, .findFull, .already, .queuePressed, .inTransit
      , .noCall, .badCommand].map ResponseCode.byte = [1, 2, 3, 4, 5, 6, 7, 8, 9, 10, 11, 12])
  ∧ ([StationState.unconfigured, .configured, .listening, .active, .draining].map StationState.code = [0, 1, 2, 3, 4])
  ∧ (∀ r : StatusReport, (ResponseBody.status r).record =
      [r.station.code, if r.known then 128 else 0, r.mark, r.frames.extractLsb' 24 8, r.frames.extractLsb' 16 8
      , r.frames.extractLsb' 8 8, r.frames.extractLsb' 0 8, BitVec.ofNat 8 r.entriesUsed, BitVec.ofNat 8 r.committed
      , BitVec.ofNat 8 r.outboundUsed, BitVec.ofNat 8 r.inboundUsed, BitVec.ofNat 8 r.occupancy
      , if r.mode = .opened then 0 else 1, BitVec.ofNat 8 r.events, BitVec.ofNat 8 r.lost])
  ∧ ResponseBody.freeEntry.record = [0] ∧ ResponseBody.notHeard.record = [0] ∧ ResponseBody.empty.record = []
  ∧ (∀ o : Overheard, (ResponseBody.overheard o).record =
      [2, BitVec.ofNat 8 (o.level / 256), BitVec.ofNat 8 o.level, BitVec.ofNat 8 o.age, o.cell.byte])
  ∧ (∀ r : HeldReport, ∃ (presence parts : Byte) (places : List Byte), (ResponseBody.held r).record =
      [1, presence, parts, BitVec.ofNat 8 r.index, r.entry.handset.extractLsb' 16 8, r.entry.handset.extractLsb' 8 8
      , r.entry.handset.extractLsb' 0 8, r.entry.stamp.epoch, r.entry.stamp.hop, r.entry.phase.code
      , BitVec.ofNat 8 (r.entry.level / 256), BitVec.ofNat 8 r.entry.level, BitVec.ofNat 8 (r.merit / 256)
      , BitVec.ofNat 8 r.merit, (if r.entry.armed then 128 else 0) + (if r.entry.claimOwed then 64 else 0)
      , BitVec.ofNat 8 r.entry.holdoff, BitVec.ofNat 8 (r.entry.silence?.getD 0), (r.entry.cell?.map Cell.byte).getD 0
      , r.entry.tag.extractLsb' 8 8, r.entry.tag.extractLsb' 0 8
      , BitVec.ofNat 8 ((r.entry.link?.map (·.ring.errors)).getD 0), BitVec.ofNat 8 ((r.entry.link?.map (·.missRun)).getD 0)
      , BitVec.ofNat 8 ((r.setup.map (·.counter)).getD 0)
      , (r.outbound.map (·.phase.code)).getD 0, (r.outbound.map (·.fire.code)).getD 0, (r.outbound.map (·.seek)).getD 0
      , BitVec.ofNat 8 ((r.outbound.bind (·.phase.target?)).getD 0), (r.outbound.bind (·.phase.switchMark?)).getD 0
      , ((r.outbound.bind (·.phase.newCell?)).map Cell.byte).getD 0
      , BitVec.ofNat 8 ((r.outbound.bind (·.phase.counter?)).getD 0)
      , BitVec.ofNat 8 ((r.outbound.map (·.phase.candidates)).getD []).length]
      ++ places
      ++ [(r.inbound.map (·.phase.code)).getD 0, BitVec.ofNat 8 ((r.inbound.map (·.source)).getD 0)
      , (r.inbound.map (·.seek)).getD 0, (r.inbound.map (·.cell.byte)).getD 0, (r.inbound.map (·.switchMark)).getD 0
      , BitVec.ofNat 8 ((r.inbound.bind (·.phase.counter?)).getD 0)
      , ((r.page.map PageRecord.tag).getD 0).extractLsb' 8 8, ((r.page.map PageRecord.tag).getD 0).extractLsb' 0 8
      , BitVec.ofNat 8 ((r.page.map (·.remaining)).getD 0), (r.find.map (·.number)).getD 0
      , BitVec.ofNat 8 ((r.find.map (·.remaining)).getD 0)]
    ∧ presence.getMsbD 0 = r.entry.silence?.isSome ∧ presence.getMsbD 1 = r.entry.cell?.isSome
    ∧ presence.getMsbD 2 = r.entry.link?.isSome ∧ presence.getMsbD 3 = r.setup.isSome
    ∧ presence.getMsbD 4 = r.outbound.isSome ∧ presence.getMsbD 5 = r.inbound.isSome
    ∧ presence.getMsbD 6 = r.page.isSome ∧ presence.getMsbD 7 = r.find.isSome
    ∧ parts.getMsbD 0 = (r.outbound.bind (·.phase.target?)).isSome ∧ parts.getMsbD 1 = (r.outbound.bind (·.phase.newCell?)).isSome
    ∧ parts.getMsbD 2 = (r.outbound.bind (·.phase.counter?)).isSome ∧ parts.getMsbD 3 = (r.inbound.bind (·.phase.counter?)).isSome
    ∧ (∀ k, 4 ≤ k → parts.getMsbD k = false)
    ∧ places.length = 12
    ∧ (∀ k c, k < 3 → ((r.outbound.map (·.phase.candidates)).getD [])[k]? = some c → (places.drop (4 * k)).take 4 =
        [BitVec.ofNat 8 c.station, BitVec.ofNat 8 (c.merit / 256), BitVec.ofNat 8 c.merit, BitVec.ofNat 8 c.freeSlots])
    ∧ ∀ k, 4 * ((r.outbound.map (·.phase.candidates)).getD []).length ≤ k → k < 12 → places[k]? = some 0)
  ∧ (∀ (e : Entry) (c : Cell) (tag : Tag) (k : Link) (n : Nat),
    (e.phase = .idle n → e.phase.code = 1 ∧ e.silence? = some n ∧ e.cell? = none ∧ e.tag = 0 ∧ e.link? = none)
    ∧ (e.phase = .setup c tag k →
        e.phase.code = 2 ∧ e.silence? = none ∧ e.cell? = some c ∧ e.tag = tag ∧ e.link? = some k)
    ∧ (e.phase = .inCall c tag k →
        e.phase.code = 3 ∧ e.silence? = none ∧ e.cell? = some c ∧ e.tag = tag ∧ e.link? = some k)
    ∧ (e.phase = .leaving c tag k →
        e.phase.code = 4 ∧ e.silence? = none ∧ e.cell? = some c ∧ e.tag = tag ∧ e.link? = some k)
    ∧ (e.phase = .arriving c tag →
        e.phase.code = 5 ∧ e.silence? = none ∧ e.cell? = some c ∧ e.tag = tag ∧ e.link? = none))
  ∧ (∀ (o : OutPhase) (l : List Candidate) (target : Nat) (m : Mark) (c : Cell) (n : Nat),
    (o = .seeking m l → o.code = 1 ∧ o.candidates = l ∧ o.target? = none ∧ o.switchMark? = none ∧ o.newCell? = none
      ∧ o.counter? = none)
    ∧ (o = .asking l target m n → o.code = 2 ∧ o.candidates = l ∧ o.target? = some target ∧ o.switchMark? = some m
      ∧ o.newCell? = none ∧ o.counter? = some n)
    ∧ (o = .switching target m c → o.code = 3 ∧ o.candidates = [] ∧ o.target? = some target ∧ o.switchMark? = some m
      ∧ o.newCell? = some c ∧ o.counter? = none)
    ∧ (o = .fallback target m c n → o.code = 4 ∧ o.candidates = [] ∧ o.target? = some target ∧ o.switchMark? = some m
      ∧ o.newCell? = some c ∧ o.counter? = some n))
  ∧ (InPhase.reserved.code = 1 ∧ InPhase.reserved.counter? = none
    ∧ ∀ n : Nat, (InPhase.awaiting n).code = 2 ∧ (InPhase.awaiting n).counter? = some n)
  ∧ ([FireKind.threshold, .collapse, .forced].map FireKind.code = [1, 2, 3])
  ∧ (∀ c : Cell, c.byte = BitVec.ofNat 4 c.slot ++ (0 : BitVec 1) ++ BitVec.ofNat 3 c.carrier)
  ∧ (∀ e : EventRecord, (ResponseBody.event e).record =
      [e.kind.code, BitVec.ofNat 8 e.kind.level, e.handset.extractLsb' 16 8, e.handset.extractLsb' 8 8
      , e.handset.extractLsb' 0 8, BitVec.ofNat 8 e.other, e.tag.extractLsb' 8 8, e.tag.extractLsb' 0 8, e.reason.code, e.mark
      , BitVec.ofNat 8 e.lost])
  ∧ (∀ (t : Tallies) (k : Nat) (j : Tally), [Tally.attachGranted, .attachDenied, .callsUp, .callsLost, .handoversOut
      , .handoverFailures, .handoversIn, .arrivalsMissed, .noticesSent, .contentionLosses, .noticesReceived, .noticesDiscarded
      , .enquiriesDropped, .bearerOccupancy][k]? = some j → ((ResponseBody.tallies t).record.drop (4 * k)).take 4 =
        [(t.get j).extractLsb' 24 8, (t.get j).extractLsb' 16 8, (t.get j).extractLsb' 8 8, (t.get j).extractLsb' 0 8])
  ∧ (∀ (r : Response) (n : Nat), (r.shiftedOut n).length = n
      ∧ (∀ k, k < n → k < 64 → (r.shiftedOut n)[k]? = r.record[k]?) ∧ ∀ k, k < n → 64 ≤ k → (r.shiftedOut n)[k]? = some 0)
  ∧ ([EventKind.none, .syncLost, .syncRegained, .callUp, .callDown, .callFailed, .callLost, .pageFailed, .handedOut, .handedIn
      , .handoverFailed, .arrivalMissed, .stampConflict, .attached, .detached, .located, .notFound, .joined, .left].map
      EventKind.code = (List.range 19).map (BitVec.ofNat 8))
  ∧ ([EventKind.none, .syncLost, .syncRegained, .callUp, .callDown, .callFailed, .callLost, .pageFailed, .handedOut, .handedIn
      , .handoverFailed, .arrivalMissed, .stampConflict, .attached, .detached, .located, .notFound, .joined, .left].map
      EventKind.level = [0, 3, 2, 2, 2, 2, 3, 2, 2, 2, 2, 2, 2, 1, 1, 1, 1, 1, 1])
  ∧ ([Reason.none, .overdue, .realigned, .new, .newTenure, .expired, .superseded, .supersededCall, .equal, .opposed, .foundIdle
      , .foundInCall, .timeout, .queue, .handset, .host, .signal, .reattach, .noConfirm, .noSync, .drain, .leaving, .noCandidate
      , .complete, .late, .stale, .notHeard, .busy, .full, .noBearer, .returned, .limit].map Reason.code
      = (List.range 32).map (BitVec.ofNat 8))

/-- R184: how an event is posted; R185: READ EVENT; R179: the event line. -/
def Obligations.EventsAreQueuedAndRead : Prop :=
  (∀ (h : HostLink) (e : EventRecord), h.events.length < 32 → h.post e = { h with events := h.events ++ [e] })
  ∧ (∀ (h : HostLink) (e x : EventRecord) (before after : List EventRecord), h.events = before ++ x :: after →
      32 ≤ h.events.length → 2 ≤ e.level → x.level = 1 → (∀ y ∈ before, y.level ≠ 1) →
      h.post e = { h with events := before ++ after ++ [e], lost := min 255 (h.lost + 1) })
  ∧ (∀ (h : HostLink) (e : EventRecord), 32 ≤ h.events.length → (e.level ≤ 1 ∨ ∀ y ∈ h.events, y.level ≠ 1) →
      h.post e = { h with lost := min 255 (h.lost + 1) })
  ∧ (∀ (s : State) (e : EventRecord) (before after : List EventRecord), s.hl.events = before ++ e :: after →
      (∀ y ∈ before, y.level < e.level) → (∀ y ∈ after, y.level ≤ e.level) →
      exec .readEvent s = .next (State.report { s with hl := { s.hl with events := before ++ after, lost := 0 } } 11
        (.event { e with lost := s.hl.lost })))
  ∧ (∀ s : State, s.hl.events = [] → exec .readEvent s = .next
      (State.report { s with hl := { s.hl with lost := 0 } } 11 (.event
        { kind := .none, handset := 0, other := 0, tag := 0, reason := .none, mark := 0, lost := s.hl.lost })))
  ∧ (∀ s : State, s.eventLine = true ↔ s.hl.events ≠ [])

/-- R186: the tallies, READ TALLIES and CLEAR TALLIES; R178, R180: the transactions that carry no command of the thirteen. R190:
the command that the bytes of a transaction spell. That a transaction puts its command in the queue is the model's own choice
(log 27). -/
def Obligations.TalliesAndEmptyTransactions : Prop :=
  (∀ (t : Tallies) (k j : Tally) (n : Nat), (t.add k n).get j = if j = k then t.get j + BitVec.ofNat 32 n else t.get j)
  ∧ (∀ s : State, exec .readTallies s = .next (s.report 12 (.tallies s.hl.tallies)))
  ∧ (∀ s : State, ∃ t, exec .clearTallies s = .next t
      ∧ t = { s.answer 13 .done with hl := { (s.answer 13 .done).hl with tallies := t.hl.tallies } }
      ∧ ∀ k, t.hl.tallies.get k = 0)
  ∧ (∀ (code : Byte) (s : State), 14 ≤ code.toNat → exec (.undefinedCommand code) s = .next (s.answer code .badCommand))
  ∧ (∀ s : State, exec .nullCommand s = .next
      { s with hl := { s.hl with shifted := some { response := s.hl.response, bytes := 64 } } })
  ∧ (∀ (n : Nat) (s : State), n < 64 → exec (.incompleteTransaction n) s = .next
      { s with hl := { s.hl with shifted := some { response := s.hl.response, bytes := n } } })
  ∧ (∀ bytes : List Byte, bytes.length < 64 → commandOfBytes bytes = .incompleteTransaction bytes.length)
  ∧ (∀ bytes extra : List Byte, bytes.length = 64 → commandOfBytes (bytes ++ extra) = commandOfBytes bytes)
  ∧ (∀ (code b1 b2 b3 b4 b5 : Byte) (rest : List Byte), 58 ≤ rest.length →
      (code = 0 → commandOfBytes (code :: b1 :: b2 :: b3 :: b4 :: b5 :: rest) = .nullCommand)
      ∧ (code = 2 → commandOfBytes (code :: b1 :: b2 :: b3 :: b4 :: b5 :: rest) = .join)
      ∧ (code = 3 → commandOfBytes (code :: b1 :: b2 :: b3 :: b4 :: b5 :: rest) = .leave)
      ∧ (code = 4 → commandOfBytes (code :: b1 :: b2 :: b3 :: b4 :: b5 :: rest) = .restart)
      ∧ (code = 5 → commandOfBytes (code :: b1 :: b2 :: b3 :: b4 :: b5 :: rest) = .page (b1 ++ b2 ++ b3) (b4 ++ b5))
      ∧ (code = 6 → commandOfBytes (code :: b1 :: b2 :: b3 :: b4 :: b5 :: rest) = .clearCall (b1 ++ b2 ++ b3))
      ∧ (code = 7 → commandOfBytes (code :: b1 :: b2 :: b3 :: b4 :: b5 :: rest) = .locate (b1 ++ b2 ++ b3))
      ∧ (code = 8 → commandOfBytes (code :: b1 :: b2 :: b3 :: b4 :: b5 :: rest) = .queryHandset (b1 ++ b2 ++ b3))
      ∧ (code = 9 → commandOfBytes (code :: b1 :: b2 :: b3 :: b4 :: b5 :: rest) = .readEntry b1)
      ∧ (code = 10 → commandOfBytes (code :: b1 :: b2 :: b3 :: b4 :: b5 :: rest) = .readStatus)
      ∧ (code = 11 → commandOfBytes (code :: b1 :: b2 :: b3 :: b4 :: b5 :: rest) = .readEvent)
      ∧ (code = 12 → commandOfBytes (code :: b1 :: b2 :: b3 :: b4 :: b5 :: rest) = .readTallies)
      ∧ (code = 13 → commandOfBytes (code :: b1 :: b2 :: b3 :: b4 :: b5 :: rest) = .clearTallies)
      ∧ (14 ≤ code.toNat → commandOfBytes (code :: b1 :: b2 :: b3 :: b4 :: b5 :: rest) = .undefinedCommand code))
  ∧ (∀ bytes : List Byte, 64 ≤ bytes.length → bytes[0]? = some 1 → ∃ w, commandOfBytes bytes = .configure w
      ∧ ∀ k b, k < 35 → bytes[k + 1]? = some b → w.extractLsb' (8 * (34 - k)) 8 = b)
  ∧ (∀ bytes : List Byte, (commandOfBytes bytes).wellFormed = true)
  ∧ (∀ (s : State) (bytes : List Byte), s.transact bytes = s.withPending (s.pending ++ [commandOfBytes bytes]))

/-- The model's stop (log 22): an operand that contradicts its row. Every well-formed command has a next state. -/
def Obligations.OnlyContradictoryOperandsStop : Prop :=
  (∀ (i : Instr) (s : State), i.wellFormed = true → ∃ t, exec i s = .next t)
  ∧ (∀ (i : Instr) (s : State), i.wellFormed = false → exec i s = .fault .notThisCommand)

/-! ### The notice as sent -/

/-- R110, R188, R191: every notice a station may send is read back as it was sent, and its check passes; where each field of
a notice lies, sent and received; the check sequence; and which received words no notice is read from. -/
def Obligations.NoticesAreLaidOutAndReadBack : Prop :=
  (∀ n : Notice, n.Fits → checkPasses n.encode = true ∧ wordSender n.encode = n.sender ∧ Notice.decode n.encode = some n)
  ∧ (∀ n : Notice, n.encode = n.body.code ++ BitVec.ofNat 6 n.sender ++ BitVec.ofNat 6 n.dest ++ n.handset ++ n.stamp.epoch
      ++ n.stamp.hop ++ n.mark ++ n.body.payload ++ checkSequence n.head ∧ n.encode.extractLsb' 16 96 = n.head)
  ∧ (∀ (k : BitVec 8) (c : Cell) (r : DeclineReason) (f : Bool) (t : Tag) (m free : Nat) (b : NoticeBody),
    (b = .take k c → b.code = 1
      ∧ b.payload = k ++ BitVec.ofNat 4 c.slot ++ BitVec.ofNat 3 c.carrier ++ (0 : BitVec 17))
    ∧ (b = .decline k r → b.code = 2 ∧ b.payload = k ++ r.code ++ (0 : BitVec 20))
    ∧ (b = .claim f → b.code = 3 ∧ b.payload = BitVec.ofBool f ++ (0 : BitVec 31))
    ∧ (b = .transfer k t → b.code = 4 ∧ b.payload = k ++ t ++ (0 : BitVec 8))
    ∧ (b = .offer k m free → b.code = 5
      ∧ b.payload = k ++ BitVec.ofNat 10 m ++ BitVec.ofNat 4 free ++ (0 : BitVec 10))
    ∧ (b = .seek k c m → b.code = 6
      ∧ b.payload = k ++ BitVec.ofNat 4 c.slot ++ BitVec.ofNat 3 c.carrier ++ BitVec.ofNat 10 m ++ (0 : BitVec 7))
    ∧ (b = .here k f → b.code = 7 ∧ b.payload = k ++ BitVec.ofBool f ++ (0 : BitVec 23))
    ∧ (b = .find k → b.code = 8 ∧ b.payload = k ++ (0 : BitVec 24)))
  ∧ ([DeclineReason.leaving, .noSync, .late, .stale, .notHeard, .busy, .full, .noBearer].map DeclineReason.code
      = [1, 2, 3, 4, 5, 6, 7, 8])
  ∧ ((∀ r : DeclineReason, DeclineReason.ofCode r.code = r)
    ∧ ∀ c : BitVec 4, c = 0 ∨ 9 ≤ c.toNat → DeclineReason.ofCode c = .busy)
  ∧ (∀ head : BitVec 96, checkSequence head = (List.range 96).foldl
      (fun (reg : BitVec 16) k => if reg.msb = head.getMsbD k then reg <<< 1 else (reg <<< 1) ^^^ 0x1021) 0xFFFF)
  ∧ (∀ w : NoticeWord, wordSender w = (w.extractLsb' 102 6).toNat
    ∧ (checkPasses w = true ↔ checkSequence (w.extractLsb' 16 96) = w.extractLsb' 0 16)
    ∧ (Notice.decode w = none ↔ wordSender w = 0 ∨ 49 ≤ wordSender w ∨ w.extractLsb' 108 4 = 0
        ∨ 9 ≤ (w.extractLsb' 108 4).toNat))
  ∧ (∀ (w : NoticeWord) (n : Notice) (k : BitVec 8) (c : Cell), Notice.decode w = some n → k = w.extractLsb' 40 8 →
    c = { slot := (w.extractLsb' 36 4).toNat, carrier := (w.extractLsb' 33 3).toNat } →
    n.sender = wordSender w ∧ n.dest = (w.extractLsb' 96 6).toNat ∧ n.handset = w.extractLsb' 72 24
    ∧ n.stamp = { epoch := w.extractLsb' 64 8, hop := w.extractLsb' 56 8 } ∧ n.mark = w.extractLsb' 48 8
    ∧ (w.extractLsb' 108 4 = 1 → n.body = .take k c)
    ∧ (w.extractLsb' 108 4 = 2 → n.body = .decline k (DeclineReason.ofCode (w.extractLsb' 36 4)))
    ∧ (w.extractLsb' 108 4 = 3 → n.body = .claim (w.getLsbD 47))
    ∧ (w.extractLsb' 108 4 = 4 → n.body = .transfer k (w.extractLsb' 24 16))
    ∧ (w.extractLsb' 108 4 = 5 →
        n.body = .offer k (min 1008 (w.extractLsb' 30 10).toNat) (w.extractLsb' 26 4).toNat)
    ∧ (w.extractLsb' 108 4 = 6 → n.body = .seek k c (w.extractLsb' 23 10).toNat)
    ∧ (w.extractLsb' 108 4 = 7 → n.body = .here k (w.getLsbD 39))
    ∧ (w.extractLsb' 108 4 = 8 → n.body = .find k))

/-! ### Invariants of every step -/

/-- R23, R31, R56, R63, R99, R115, R122, R127, R184: no list or queue outgrows its size. R96, R33: where records, entries and
slots agree and no handset is held twice, there are at most 15 setup records and 4 standing MOVEs. -/
def Obligations.EveryStepKeepsCapacities : Prop :=
  (∀ s t : State, s.WithinCapacity → step s = .next t → t.WithinCapacity)
  ∧ (∀ s : State, s.RecordsMatch → s.HandsetsApart → s.cc.setups.length ≤ 15 ∧ s.sp.moves.length ≤ 4)

/-- R18, R23, R33, R96, R127, R154, R155: records, entries and slots go on agreeing. The premises on handsets and levels are
invariants of their own. -/
def Obligations.EveryStepKeepsRecordsMatched : Prop :=
  ∀ s t : State, s.RecordsMatch → s.HandsetsApart → s.LevelsInRange → step s = .next t → t.RecordsMatch

/-- R26, R68, R144, R162: nothing is held against an unknown mark. -/
def Obligations.EveryStepKeepsTheMarkSafe : Prop :=
  ∀ s t : State, s.MarkSafe → step s = .next t → t.MarkSafe

/-- R70, R56: no handset is held twice, overheard twice, or both. -/
def Obligations.EveryStepKeepsHandsetsApart : Prop :=
  ∀ s t : State, s.HandsetsApart → step s = .next t → t.HandsetsApart

/-- R18, R90, R107, R147, R165: a station that is not serving holds no handset, call, page or handover and commits no slot. -/
def Obligations.EveryStepKeepsServiceSafe : Prop :=
  ∀ s t : State, s.ServiceSafe → step s = .next t → t.ServiceSafe

/-- R37, R38, R53, R167: every filtered level and every configuration field stays in its range. -/
def Obligations.EveryStepKeepsLevelsInRange : Prop :=
  ∀ s t : State, s.LevelsInRange → step s = .next t → t.LevelsInRange

/-- The state after reset meets every invariant. -/
def Obligations.ResetMeetsTheInvariants : Prop :=
  State.reset.WithinCapacity ∧ State.reset.MarkSafe ∧ State.reset.HandsetsApart ∧ State.reset.ServiceSafe
    ∧ State.reset.LevelsInRange ∧ State.reset.RecordsMatch

end
end

