-- ==== Sys2Proof/Laws/Arithmetic.lean ====
section
/-! SUPPORT. The comparisons of serial numbers and marks as propositions over numbers, and the range of the level filter. A
proof cites these and does not unfold the definitions. -/
namespace Sys2Proof.Machine

theorem serialNewer_iff (a b : BitVec 8) : serialNewer a b = true ↔ 1 ≤ (a - b).toNat ∧ (a - b).toNat ≤ 127 := by
  unfold serialNewer
  rw [Bool.and_eq_true, decide_eq_true_eq, decide_eq_true_eq]
  rfl

theorem serialOlder_iff (a b : BitVec 8) : serialOlder a b = true ↔ 128 ≤ (a - b).toNat := by
  unfold serialOlder
  rw [decide_eq_true_eq]
  rfl

/-- The two differences of a pair add up to 0 around the circle. -/
theorem serial_swap (a b : BitVec 8) : (b - a).toNat = (256 - (a - b).toNat) % 256 := by bv_omega

theorem Stamp.newer_iff (s t : Stamp) : s.newer t = true ↔
    serialNewer s.epoch t.epoch = true ∨ (s.epoch = t.epoch ∧ serialNewer s.hop t.hop = true) := by
  simp [Stamp.newer]

theorem Stamp.older_iff (s t : Stamp) : s.older t = true ↔
    serialOlder s.epoch t.epoch = true ∨ (s.epoch = t.epoch ∧ serialOlder s.hop t.hop = true) := by
  simp [Stamp.older]

theorem Stamp.compare_newer (n e : Stamp) (h : n.newer e = true) : n.compare e = .newer := by simp [Stamp.compare, h]

/-- A stamp is not newer than itself. -/
theorem Stamp.not_newer_self (s : Stamp) : s.newer s = false := by
  simp [Stamp.newer, serialNewer, serialDiff]

theorem Stamp.compare_self (s : Stamp) : s.compare s = .equal := by
  simp [Stamp.compare, Stamp.not_newer_self]

/-- An older stamp is neither newer nor equal. -/
theorem Stamp.not_newer_of_older (n e : Stamp) (h : n.older e = true) : n.newer e = false ∧ n ≠ e := by
  rw [Stamp.older_iff] at h
  constructor
  · apply Bool.eq_false_iff.mpr
    rw [Ne, Stamp.newer_iff]
    simp only [serialNewer_iff, serialOlder_iff] at *
    rcases h with h | ⟨h, h'⟩
    · rintro (g | ⟨g, -⟩)
      · omega
      · rw [g] at h; simp at h
    · rintro (g | ⟨-, g⟩)
      · rw [h] at g; simp at g
      · omega
  · rintro rfl
    simp [serialOlder_iff] at h

theorem Stamp.compare_opposed (n e : Stamp) (h : n.older e = true) (g : e.older n = true) : n.compare e = .opposed := by
  simp [Stamp.compare, Stamp.not_newer_of_older n e h, g]

theorem Stamp.compare_older (n e : Stamp) (h : n.older e = true) (g : e.older n = false) : n.compare e = .older := by
  simp [Stamp.compare, Stamp.not_newer_of_older n e h, g]

/-- The stamp after a handover is newer than the one before it. -/
theorem Stamp.nextHop_newer (s : Stamp) : s.nextHop.newer s = true := by
  rw [Stamp.newer_iff]
  right
  refine ⟨rfl, ?_⟩
  rw [serialNewer_iff]
  simp only [Stamp.nextHop]
  bv_omega

theorem TimeBase.distance?_known (tb : TimeBase) (m : Mark) (h : tb.known = true) :
    tb.distance? m = some (m - tb.mark).toNat := by simp [TimeBase.distance?, h]

theorem TimeBase.distance?_unknown (tb : TimeBase) (m : Mark) (h : tb.known = false) : tb.distance? m = none := by
  simp [TimeBase.distance?, h]

theorem TimeBase.within_unknown (tb : TimeBase) (m : Mark) (lo hi : Nat) (h : tb.known = false) :
    tb.within m lo hi = false := by simp [TimeBase.within, TimeBase.distance?_unknown tb m h]

theorem TimeBase.within_iff (tb : TimeBase) (m : Mark) (lo hi : Nat) :
    tb.within m lo hi = true ↔ tb.known = true ∧ lo ≤ (m - tb.mark).toNat ∧ (m - tb.mark).toNat ≤ hi := by
  cases h : tb.known
  · simp [TimeBase.within_unknown tb m lo hi h]
  · simp [TimeBase.within, TimeBase.distance?_known tb m h]

theorem TimeBase.due_iff (tb : TimeBase) (m : Mark) : tb.due m = true ↔ tb.known = true ∧ m = tb.mark := by
  unfold TimeBase.due
  rw [TimeBase.within_iff]
  constructor
  · rintro ⟨h, -, g⟩
    exact ⟨h, by bv_omega⟩
  · rintro ⟨h, rfl⟩
    simp [h]

theorem TimeBase.due_unknown (tb : TimeBase) (m : Mark) (h : tb.known = false) : tb.due m = false :=
  TimeBase.within_unknown tb m 0 0 h

/-- The filter step stays between where it was and where it goes (R37). -/
theorem filterStep_between (f l w : Nat) (h1 : 1 ≤ w) (h4 : w ≤ 4) :
    (filterStep f l w : Int) = f + filterDelta f l w
      ∧ (f ≤ 16 * l → f ≤ filterStep f l w ∧ filterStep f l w ≤ 16 * l)
      ∧ (16 * l ≤ f → 16 * l ≤ filterStep f l w ∧ filterStep f l w ≤ f) := by
  have : w = 1 ∨ w = 2 ∨ w = 3 ∨ w = 4 := by omega
  rcases this with rfl | rfl | rfl | rfl <;> simp [filterStep, filterDelta] <;> omega

theorem filterStep_le (f l w : Nat) (h1 : 1 ≤ w) (h4 : w ≤ 4) (hf : f ≤ 1008) (hl : l ≤ 63) : filterStep f l w ≤ 1008 := by
  have h := filterStep_between f l w h1 h4
  rcases Nat.le_total f (16 * l) with g | g
  · exact (h.2.1 g).2.trans (by omega)
  · exact (h.2.2 g).2.trans hf

theorem filterStart_le (l : Nat) (hl : l ≤ 63) : filterStart l ≤ 1008 := by unfold filterStart; omega

/-- E counts at most the eight reports of a ring. -/
theorem Entry.errors_le (e : Entry) : e.errors ≤ 8 := by
  unfold Entry.errors
  split
  · exact le_trans List.countP_le_length (by simp)
  · simp

@[simp] theorem Link.enter_missRun_sync (k : Link) (check : Bool) : (k.enter true check).missRun = 0 := by simp [Link.enter]

@[simp] theorem Link.enter_missRun_lost (k : Link) (check : Bool) :
    (k.enter false check).missRun = min 255 (k.missRun + 1) := by simp [Link.enter]

end Sys2Proof.Machine
end

