-- ==== Sys2Proof/Laws/Frames.lean ====
section
/-! SUPPORT. For each shared operation, the parts of the state it leaves as they are: one lemma an operation, which simp
splits into one equation a part. A proof about a part cites these and does not unfold the operation. -/
namespace Sys2Proof.Machine

/-- It touches pending alone. -/
@[simp] theorem State.withPending_keeps (s : State) (q : List Instr) :
    (State.withPending s q).drawn = s.drawn ∧ (State.withPending s q).tb = s.tb ∧ (State.withPending s q).sp = s.sp
    ∧ (State.withPending s q).mu = s.mu ∧ (State.withPending s q).rc = s.rc ∧ (State.withPending s q).cc = s.cc
    ∧ (State.withPending s q).he = s.he ∧ (State.withPending s q).bus = s.bus ∧ (State.withPending s q).sc = s.sc
    ∧ (State.withPending s q).hl = s.hl := by
  exact ⟨rfl, rfl, rfl, rfl, rfl, rfl, rfl, rfl, rfl, rfl⟩

/-- It touches hl alone. -/
@[simp] theorem State.postWithMark_keeps (s : State) (k : EventKind) (h : Handset) (o : Nat) (t : Tag) (r : Reason) (m : Mark) :
    (State.postWithMark s k h o t r m).pending = s.pending ∧ (State.postWithMark s k h o t r m).drawn = s.drawn
    ∧ (State.postWithMark s k h o t r m).tb = s.tb ∧ (State.postWithMark s k h o t r m).sp = s.sp
    ∧ (State.postWithMark s k h o t r m).mu = s.mu ∧ (State.postWithMark s k h o t r m).rc = s.rc
    ∧ (State.postWithMark s k h o t r m).cc = s.cc ∧ (State.postWithMark s k h o t r m).he = s.he
    ∧ (State.postWithMark s k h o t r m).bus = s.bus ∧ (State.postWithMark s k h o t r m).sc = s.sc := by
  exact ⟨rfl, rfl, rfl, rfl, rfl, rfl, rfl, rfl, rfl, rfl⟩

/-- It touches hl alone. -/
@[simp] theorem State.post_keeps (s : State) (k : EventKind) (h : Handset) (o : Nat) (t : Tag) (r : Reason) :
    (State.post s k h o t r).pending = s.pending ∧ (State.post s k h o t r).drawn = s.drawn
    ∧ (State.post s k h o t r).tb = s.tb ∧ (State.post s k h o t r).sp = s.sp ∧ (State.post s k h o t r).mu = s.mu
    ∧ (State.post s k h o t r).rc = s.rc ∧ (State.post s k h o t r).cc = s.cc ∧ (State.post s k h o t r).he = s.he
    ∧ (State.post s k h o t r).bus = s.bus ∧ (State.post s k h o t r).sc = s.sc := by
  exact ⟨rfl, rfl, rfl, rfl, rfl, rfl, rfl, rfl, rfl, rfl⟩

/-- It touches hl alone. -/
@[simp] theorem State.countBy_keeps (s : State) (k : Tally) (n : Nat) :
    (State.countBy s k n).pending = s.pending ∧ (State.countBy s k n).drawn = s.drawn
    ∧ (State.countBy s k n).tb = s.tb ∧ (State.countBy s k n).sp = s.sp ∧ (State.countBy s k n).mu = s.mu
    ∧ (State.countBy s k n).rc = s.rc ∧ (State.countBy s k n).cc = s.cc ∧ (State.countBy s k n).he = s.he
    ∧ (State.countBy s k n).bus = s.bus ∧ (State.countBy s k n).sc = s.sc := by
  exact ⟨rfl, rfl, rfl, rfl, rfl, rfl, rfl, rfl, rfl, rfl⟩

/-- It touches hl alone. -/
@[simp] theorem State.count_keeps (s : State) (k : Tally) :
    (State.count s k).pending = s.pending ∧ (State.count s k).drawn = s.drawn ∧ (State.count s k).tb = s.tb
    ∧ (State.count s k).sp = s.sp ∧ (State.count s k).mu = s.mu ∧ (State.count s k).rc = s.rc
    ∧ (State.count s k).cc = s.cc ∧ (State.count s k).he = s.he ∧ (State.count s k).bus = s.bus
    ∧ (State.count s k).sc = s.sc := by
  exact ⟨rfl, rfl, rfl, rfl, rfl, rfl, rfl, rfl, rfl, rfl⟩

/-- It touches sp alone. -/
@[simp] theorem State.writeSlot_keeps (s : State) (slot : Nat) (e : SlotEntry) :
    (State.writeSlot s slot e).pending = s.pending ∧ (State.writeSlot s slot e).drawn = s.drawn
    ∧ (State.writeSlot s slot e).tb = s.tb ∧ (State.writeSlot s slot e).mu = s.mu
    ∧ (State.writeSlot s slot e).rc = s.rc ∧ (State.writeSlot s slot e).cc = s.cc
    ∧ (State.writeSlot s slot e).he = s.he ∧ (State.writeSlot s slot e).bus = s.bus
    ∧ (State.writeSlot s slot e).sc = s.sc ∧ (State.writeSlot s slot e).hl = s.hl := by
  exact ⟨rfl, rfl, rfl, rfl, rfl, rfl, rfl, rfl, rfl, rfl⟩

/-- It touches sp alone. -/
@[simp] theorem State.restoreSlot_keeps (s : State) (slot : Nat) (h : Handset) :
    (State.restoreSlot s slot h).pending = s.pending ∧ (State.restoreSlot s slot h).drawn = s.drawn
    ∧ (State.restoreSlot s slot h).tb = s.tb ∧ (State.restoreSlot s slot h).mu = s.mu
    ∧ (State.restoreSlot s slot h).rc = s.rc ∧ (State.restoreSlot s slot h).cc = s.cc
    ∧ (State.restoreSlot s slot h).he = s.he ∧ (State.restoreSlot s slot h).bus = s.bus
    ∧ (State.restoreSlot s slot h).sc = s.sc ∧ (State.restoreSlot s slot h).hl = s.hl := by
  unfold State.restoreSlot
  (repeat' split) <;> simp

/-- It touches sp alone. -/
@[simp] theorem State.freeSlot_keeps (s : State) (slot : Nat) :
    (State.freeSlot s slot).pending = s.pending ∧ (State.freeSlot s slot).drawn = s.drawn
    ∧ (State.freeSlot s slot).tb = s.tb ∧ (State.freeSlot s slot).mu = s.mu ∧ (State.freeSlot s slot).rc = s.rc
    ∧ (State.freeSlot s slot).cc = s.cc ∧ (State.freeSlot s slot).he = s.he ∧ (State.freeSlot s slot).bus = s.bus
    ∧ (State.freeSlot s slot).sc = s.sc ∧ (State.freeSlot s slot).hl = s.hl := by
  unfold State.freeSlot
  (repeat' split) <;> simp

/-- It touches sp alone. -/
@[simp] theorem State.admitChange_keeps (s : State) (c : PlanChange) :
    (State.admitChange s c).pending = s.pending ∧ (State.admitChange s c).drawn = s.drawn
    ∧ (State.admitChange s c).tb = s.tb ∧ (State.admitChange s c).mu = s.mu ∧ (State.admitChange s c).rc = s.rc
    ∧ (State.admitChange s c).cc = s.cc ∧ (State.admitChange s c).he = s.he ∧ (State.admitChange s c).bus = s.bus
    ∧ (State.admitChange s c).sc = s.sc ∧ (State.admitChange s c).hl = s.hl := by
  exact ⟨rfl, rfl, rfl, rfl, rfl, rfl, rfl, rfl, rfl, rfl⟩

/-- It touches sp alone. -/
@[simp] theorem State.applyDueChanges_keeps (s : State) :
    (State.applyDueChanges s).pending = s.pending ∧ (State.applyDueChanges s).drawn = s.drawn
    ∧ (State.applyDueChanges s).tb = s.tb ∧ (State.applyDueChanges s).mu = s.mu ∧ (State.applyDueChanges s).rc = s.rc
    ∧ (State.applyDueChanges s).cc = s.cc ∧ (State.applyDueChanges s).he = s.he
    ∧ (State.applyDueChanges s).bus = s.bus ∧ (State.applyDueChanges s).sc = s.sc
    ∧ (State.applyDueChanges s).hl = s.hl := by
  exact ⟨rfl, rfl, rfl, rfl, rfl, rfl, rfl, rfl, rfl, rfl⟩

/-- It touches sp alone. -/
@[simp] theorem State.setMove_keeps (s : State) (m : Move) :
    (State.setMove s m).pending = s.pending ∧ (State.setMove s m).drawn = s.drawn ∧ (State.setMove s m).tb = s.tb
    ∧ (State.setMove s m).mu = s.mu ∧ (State.setMove s m).rc = s.rc ∧ (State.setMove s m).cc = s.cc
    ∧ (State.setMove s m).he = s.he ∧ (State.setMove s m).bus = s.bus ∧ (State.setMove s m).sc = s.sc
    ∧ (State.setMove s m).hl = s.hl := by
  exact ⟨rfl, rfl, rfl, rfl, rfl, rfl, rfl, rfl, rfl, rfl⟩

/-- It touches sp alone. -/
@[simp] theorem State.withdrawMove_keeps (s : State) (slot : Nat) :
    (State.withdrawMove s slot).pending = s.pending ∧ (State.withdrawMove s slot).drawn = s.drawn
    ∧ (State.withdrawMove s slot).tb = s.tb ∧ (State.withdrawMove s slot).mu = s.mu
    ∧ (State.withdrawMove s slot).rc = s.rc ∧ (State.withdrawMove s slot).cc = s.cc
    ∧ (State.withdrawMove s slot).he = s.he ∧ (State.withdrawMove s slot).bus = s.bus
    ∧ (State.withdrawMove s slot).sc = s.sc ∧ (State.withdrawMove s slot).hl = s.hl := by
  exact ⟨rfl, rfl, rfl, rfl, rfl, rfl, rfl, rfl, rfl, rfl⟩

/-- It touches sp alone. -/
@[simp] theorem State.withdrawMoveOf_keeps (s : State) (i : Nat) :
    (State.withdrawMoveOf s i).pending = s.pending ∧ (State.withdrawMoveOf s i).drawn = s.drawn
    ∧ (State.withdrawMoveOf s i).tb = s.tb ∧ (State.withdrawMoveOf s i).mu = s.mu
    ∧ (State.withdrawMoveOf s i).rc = s.rc ∧ (State.withdrawMoveOf s i).cc = s.cc
    ∧ (State.withdrawMoveOf s i).he = s.he ∧ (State.withdrawMoveOf s i).bus = s.bus
    ∧ (State.withdrawMoveOf s i).sc = s.sc ∧ (State.withdrawMoveOf s i).hl = s.hl := by
  unfold State.withdrawMoveOf
  split <;> simp

/-- It touches sp alone. -/
@[simp] theorem State.offerBeacon_keeps (s : State) (m : Downlink) :
    (State.offerBeacon s m).pending = s.pending ∧ (State.offerBeacon s m).drawn = s.drawn
    ∧ (State.offerBeacon s m).tb = s.tb ∧ (State.offerBeacon s m).mu = s.mu ∧ (State.offerBeacon s m).rc = s.rc
    ∧ (State.offerBeacon s m).cc = s.cc ∧ (State.offerBeacon s m).he = s.he ∧ (State.offerBeacon s m).bus = s.bus
    ∧ (State.offerBeacon s m).sc = s.sc ∧ (State.offerBeacon s m).hl = s.hl := by
  unfold State.offerBeacon
  (repeat' split) <;> simp

/-- It touches sp, hl alone. -/
@[simp] theorem State.grant_keeps (s : State) (h : Handset) :
    (State.grant s h).pending = s.pending ∧ (State.grant s h).drawn = s.drawn ∧ (State.grant s h).tb = s.tb
    ∧ (State.grant s h).mu = s.mu ∧ (State.grant s h).rc = s.rc ∧ (State.grant s h).cc = s.cc
    ∧ (State.grant s h).he = s.he ∧ (State.grant s h).bus = s.bus ∧ (State.grant s h).sc = s.sc := by
  unfold State.grant
  (repeat' split) <;> simp

/-- It touches sp, hl alone. -/
@[simp] theorem State.denyAttach_keeps (s : State) (h : Handset) (r : DenyReason) :
    (State.denyAttach s h r).pending = s.pending ∧ (State.denyAttach s h r).drawn = s.drawn
    ∧ (State.denyAttach s h r).tb = s.tb ∧ (State.denyAttach s h r).mu = s.mu ∧ (State.denyAttach s h r).rc = s.rc
    ∧ (State.denyAttach s h r).cc = s.cc ∧ (State.denyAttach s h r).he = s.he ∧ (State.denyAttach s h r).bus = s.bus
    ∧ (State.denyAttach s h r).sc = s.sc := by
  unfold State.denyAttach
  simp

/-- It touches sp alone. -/
@[simp] theorem State.denyCall_keeps (s : State) (h : Handset) (r : DenyReason) :
    (State.denyCall s h r).pending = s.pending ∧ (State.denyCall s h r).drawn = s.drawn
    ∧ (State.denyCall s h r).tb = s.tb ∧ (State.denyCall s h r).mu = s.mu ∧ (State.denyCall s h r).rc = s.rc
    ∧ (State.denyCall s h r).cc = s.cc ∧ (State.denyCall s h r).he = s.he ∧ (State.denyCall s h r).bus = s.bus
    ∧ (State.denyCall s h r).sc = s.sc ∧ (State.denyCall s h r).hl = s.hl := by
  unfold State.denyCall
  simp

/-- It touches rc alone. -/
@[simp] theorem State.setEntry_keeps (s : State) (i : Nat) (e : Option Entry) :
    (State.setEntry s i e).pending = s.pending ∧ (State.setEntry s i e).drawn = s.drawn
    ∧ (State.setEntry s i e).tb = s.tb ∧ (State.setEntry s i e).sp = s.sp ∧ (State.setEntry s i e).mu = s.mu
    ∧ (State.setEntry s i e).cc = s.cc ∧ (State.setEntry s i e).he = s.he ∧ (State.setEntry s i e).bus = s.bus
    ∧ (State.setEntry s i e).sc = s.sc ∧ (State.setEntry s i e).hl = s.hl := by
  exact ⟨rfl, rfl, rfl, rfl, rfl, rfl, rfl, rfl, rfl, rfl⟩

/-- It touches rc alone. -/
@[simp] theorem State.modifyEntry_keeps (s : State) (i : Nat) (f : Entry → Entry) :
    (State.modifyEntry s i f).pending = s.pending ∧ (State.modifyEntry s i f).drawn = s.drawn
    ∧ (State.modifyEntry s i f).tb = s.tb ∧ (State.modifyEntry s i f).sp = s.sp ∧ (State.modifyEntry s i f).mu = s.mu
    ∧ (State.modifyEntry s i f).cc = s.cc ∧ (State.modifyEntry s i f).he = s.he
    ∧ (State.modifyEntry s i f).bus = s.bus ∧ (State.modifyEntry s i f).sc = s.sc
    ∧ (State.modifyEntry s i f).hl = s.hl := by
  unfold State.modifyEntry
  (repeat' split) <;> simp

/-- It touches cc alone. -/
@[simp] theorem State.removePage_keeps (s : State) (h : Handset) :
    (State.removePage s h).pending = s.pending ∧ (State.removePage s h).drawn = s.drawn
    ∧ (State.removePage s h).tb = s.tb ∧ (State.removePage s h).sp = s.sp ∧ (State.removePage s h).mu = s.mu
    ∧ (State.removePage s h).rc = s.rc ∧ (State.removePage s h).he = s.he ∧ (State.removePage s h).bus = s.bus
    ∧ (State.removePage s h).sc = s.sc ∧ (State.removePage s h).hl = s.hl := by
  exact ⟨rfl, rfl, rfl, rfl, rfl, rfl, rfl, rfl, rfl, rfl⟩

/-- It touches rc, cc alone. -/
@[simp] theorem State.freeEntry_keeps (s : State) (i : Nat) :
    (State.freeEntry s i).pending = s.pending ∧ (State.freeEntry s i).drawn = s.drawn
    ∧ (State.freeEntry s i).tb = s.tb ∧ (State.freeEntry s i).sp = s.sp ∧ (State.freeEntry s i).mu = s.mu
    ∧ (State.freeEntry s i).he = s.he ∧ (State.freeEntry s i).bus = s.bus ∧ (State.freeEntry s i).sc = s.sc
    ∧ (State.freeEntry s i).hl = s.hl := by
  unfold State.freeEntry
  (repeat' split) <;> simp

/-- It touches rc alone. -/
@[simp] theorem State.toIdle_keeps (s : State) (i : Nat) :
    (State.toIdle s i).pending = s.pending ∧ (State.toIdle s i).drawn = s.drawn ∧ (State.toIdle s i).tb = s.tb
    ∧ (State.toIdle s i).sp = s.sp ∧ (State.toIdle s i).mu = s.mu ∧ (State.toIdle s i).cc = s.cc
    ∧ (State.toIdle s i).he = s.he ∧ (State.toIdle s i).bus = s.bus ∧ (State.toIdle s i).sc = s.sc
    ∧ (State.toIdle s i).hl = s.hl := by
  unfold State.toIdle
  simp

/-- It touches cc alone. -/
@[simp] theorem State.dropSetup_keeps (s : State) (i : Nat) :
    (State.dropSetup s i).pending = s.pending ∧ (State.dropSetup s i).drawn = s.drawn
    ∧ (State.dropSetup s i).tb = s.tb ∧ (State.dropSetup s i).sp = s.sp ∧ (State.dropSetup s i).mu = s.mu
    ∧ (State.dropSetup s i).rc = s.rc ∧ (State.dropSetup s i).he = s.he ∧ (State.dropSetup s i).bus = s.bus
    ∧ (State.dropSetup s i).sc = s.sc ∧ (State.dropSetup s i).hl = s.hl := by
  exact ⟨rfl, rfl, rfl, rfl, rfl, rfl, rfl, rfl, rfl, rfl⟩

/-- It touches he alone. -/
@[simp] theorem State.setOut_keeps (s : State) (r : Nat) (o : Option OutRecord) :
    (State.setOut s r o).pending = s.pending ∧ (State.setOut s r o).drawn = s.drawn ∧ (State.setOut s r o).tb = s.tb
    ∧ (State.setOut s r o).sp = s.sp ∧ (State.setOut s r o).mu = s.mu ∧ (State.setOut s r o).rc = s.rc
    ∧ (State.setOut s r o).cc = s.cc ∧ (State.setOut s r o).bus = s.bus ∧ (State.setOut s r o).sc = s.sc
    ∧ (State.setOut s r o).hl = s.hl := by
  exact ⟨rfl, rfl, rfl, rfl, rfl, rfl, rfl, rfl, rfl, rfl⟩

/-- It touches he alone. -/
@[simp] theorem State.setIn_keeps (s : State) (r : Nat) (o : Option InRecord) :
    (State.setIn s r o).pending = s.pending ∧ (State.setIn s r o).drawn = s.drawn ∧ (State.setIn s r o).tb = s.tb
    ∧ (State.setIn s r o).sp = s.sp ∧ (State.setIn s r o).mu = s.mu ∧ (State.setIn s r o).rc = s.rc
    ∧ (State.setIn s r o).cc = s.cc ∧ (State.setIn s r o).bus = s.bus ∧ (State.setIn s r o).sc = s.sc
    ∧ (State.setIn s r o).hl = s.hl := by
  exact ⟨rfl, rfl, rfl, rfl, rfl, rfl, rfl, rfl, rfl, rfl⟩

/-- It touches he alone. -/
@[simp] theorem State.dropOut_keeps (s : State) (i : Nat) :
    (State.dropOut s i).pending = s.pending ∧ (State.dropOut s i).drawn = s.drawn ∧ (State.dropOut s i).tb = s.tb
    ∧ (State.dropOut s i).sp = s.sp ∧ (State.dropOut s i).mu = s.mu ∧ (State.dropOut s i).rc = s.rc
    ∧ (State.dropOut s i).cc = s.cc ∧ (State.dropOut s i).bus = s.bus ∧ (State.dropOut s i).sc = s.sc
    ∧ (State.dropOut s i).hl = s.hl := by
  unfold State.dropOut
  (repeat' split) <;> simp

/-- It touches he alone. -/
@[simp] theorem State.dropIn_keeps (s : State) (i : Nat) :
    (State.dropIn s i).pending = s.pending ∧ (State.dropIn s i).drawn = s.drawn ∧ (State.dropIn s i).tb = s.tb
    ∧ (State.dropIn s i).sp = s.sp ∧ (State.dropIn s i).mu = s.mu ∧ (State.dropIn s i).rc = s.rc
    ∧ (State.dropIn s i).cc = s.cc ∧ (State.dropIn s i).bus = s.bus ∧ (State.dropIn s i).sc = s.sc
    ∧ (State.dropIn s i).hl = s.hl := by
  unfold State.dropIn
  (repeat' split) <;> simp

/-- It touches sp alone. -/
@[simp] theorem State.freeBearer_keeps (s : State) (e : Entry) :
    (State.freeBearer s e).pending = s.pending ∧ (State.freeBearer s e).drawn = s.drawn
    ∧ (State.freeBearer s e).tb = s.tb ∧ (State.freeBearer s e).mu = s.mu ∧ (State.freeBearer s e).rc = s.rc
    ∧ (State.freeBearer s e).cc = s.cc ∧ (State.freeBearer s e).he = s.he ∧ (State.freeBearer s e).bus = s.bus
    ∧ (State.freeBearer s e).sc = s.sc ∧ (State.freeBearer s e).hl = s.hl := by
  unfold State.freeBearer
  (repeat' split) <;> simp

/-- It touches sp, cc, he alone. -/
@[simp] theorem State.releaseCall_keeps (s : State) (i : Nat) (e : Entry) :
    (State.releaseCall s i e).pending = s.pending ∧ (State.releaseCall s i e).drawn = s.drawn
    ∧ (State.releaseCall s i e).tb = s.tb ∧ (State.releaseCall s i e).mu = s.mu ∧ (State.releaseCall s i e).rc = s.rc
    ∧ (State.releaseCall s i e).bus = s.bus ∧ (State.releaseCall s i e).sc = s.sc
    ∧ (State.releaseCall s i e).hl = s.hl := by
  unfold State.releaseCall
  simp

/-- It touches bus, hl alone. -/
@[simp] theorem State.offer_keeps (s : State) (n : Notice) :
    (State.offer s n).pending = s.pending ∧ (State.offer s n).drawn = s.drawn ∧ (State.offer s n).tb = s.tb
    ∧ (State.offer s n).sp = s.sp ∧ (State.offer s n).mu = s.mu ∧ (State.offer s n).rc = s.rc
    ∧ (State.offer s n).cc = s.cc ∧ (State.offer s n).he = s.he ∧ (State.offer s n).sc = s.sc := by
  unfold State.offer
  (repeat' split) <;> simp

/-- It touches bus, hl, rc alone. -/
@[simp] theorem State.offerClaim_keeps (s : State) (i : Nat) :
    (State.offerClaim s i).pending = s.pending ∧ (State.offerClaim s i).drawn = s.drawn
    ∧ (State.offerClaim s i).tb = s.tb ∧ (State.offerClaim s i).sp = s.sp ∧ (State.offerClaim s i).mu = s.mu
    ∧ (State.offerClaim s i).cc = s.cc ∧ (State.offerClaim s i).he = s.he ∧ (State.offerClaim s i).sc = s.sc := by
  unfold State.offerClaim
  (repeat' split) <;> simp

/-- It touches bus, hl, rc alone. -/
@[simp] theorem readmitFrom_keeps (s : State) (l : List Nat) :
    (readmitFrom l s).pending = s.pending ∧ (readmitFrom l s).drawn = s.drawn ∧ (readmitFrom l s).tb = s.tb
    ∧ (readmitFrom l s).sp = s.sp ∧ (readmitFrom l s).mu = s.mu ∧ (readmitFrom l s).cc = s.cc
    ∧ (readmitFrom l s).he = s.he ∧ (readmitFrom l s).sc = s.sc := by
  induction l generalizing s with
  | nil => simp [readmitFrom]
  | cons i rest ih =>
    unfold readmitFrom
    (repeat' split) <;> simp [ih]

/-- It touches bus, hl, rc alone. -/
@[simp] theorem State.occupancyFell_keeps (s : State) :
    (State.occupancyFell s).pending = s.pending ∧ (State.occupancyFell s).drawn = s.drawn
    ∧ (State.occupancyFell s).tb = s.tb ∧ (State.occupancyFell s).sp = s.sp ∧ (State.occupancyFell s).mu = s.mu
    ∧ (State.occupancyFell s).cc = s.cc ∧ (State.occupancyFell s).he = s.he ∧ (State.occupancyFell s).sc = s.sc := by
  unfold State.occupancyFell
  simp

/-- It touches hl alone. -/
@[simp] theorem State.callLost_keeps (s : State) (e : Entry) (o : Nat) (r : Reason) :
    (State.callLost s e o r).pending = s.pending ∧ (State.callLost s e o r).drawn = s.drawn
    ∧ (State.callLost s e o r).tb = s.tb ∧ (State.callLost s e o r).sp = s.sp ∧ (State.callLost s e o r).mu = s.mu
    ∧ (State.callLost s e o r).rc = s.rc ∧ (State.callLost s e o r).cc = s.cc ∧ (State.callLost s e o r).he = s.he
    ∧ (State.callLost s e o r).bus = s.bus ∧ (State.callLost s e o r).sc = s.sc := by
  unfold State.callLost
  simp

/-- It touches hl alone. -/
@[simp] theorem State.loseByDrain_keeps (s : State) (i : Nat) :
    (State.loseByDrain s i).pending = s.pending ∧ (State.loseByDrain s i).drawn = s.drawn
    ∧ (State.loseByDrain s i).tb = s.tb ∧ (State.loseByDrain s i).sp = s.sp ∧ (State.loseByDrain s i).mu = s.mu
    ∧ (State.loseByDrain s i).rc = s.rc ∧ (State.loseByDrain s i).cc = s.cc ∧ (State.loseByDrain s i).he = s.he
    ∧ (State.loseByDrain s i).bus = s.bus ∧ (State.loseByDrain s i).sc = s.sc := by
  unfold State.loseByDrain
  (repeat' split) <;> simp

/-- It touches cc alone. -/
@[simp] theorem State.rotatePages_keeps (s : State) :
    (State.rotatePages s).pending = s.pending ∧ (State.rotatePages s).drawn = s.drawn
    ∧ (State.rotatePages s).tb = s.tb ∧ (State.rotatePages s).sp = s.sp ∧ (State.rotatePages s).mu = s.mu
    ∧ (State.rotatePages s).rc = s.rc ∧ (State.rotatePages s).he = s.he ∧ (State.rotatePages s).bus = s.bus
    ∧ (State.rotatePages s).sc = s.sc ∧ (State.rotatePages s).hl = s.hl := by
  exact ⟨rfl, rfl, rfl, rfl, rfl, rfl, rfl, rfl, rfl, rfl⟩

/-- It touches sp, cc alone. -/
@[simp] theorem State.afterArbiter_keeps (s : State) :
    (State.afterArbiter s).pending = s.pending ∧ (State.afterArbiter s).drawn = s.drawn
    ∧ (State.afterArbiter s).tb = s.tb ∧ (State.afterArbiter s).mu = s.mu ∧ (State.afterArbiter s).rc = s.rc
    ∧ (State.afterArbiter s).he = s.he ∧ (State.afterArbiter s).bus = s.bus ∧ (State.afterArbiter s).sc = s.sc
    ∧ (State.afterArbiter s).hl = s.hl := by
  unfold State.afterArbiter
  (repeat' split) <;> simp

/-- It touches sp, cc alone. -/
@[simp] theorem State.buildPlan_keeps (s : State) :
    (State.buildPlan s).pending = s.pending ∧ (State.buildPlan s).drawn = s.drawn ∧ (State.buildPlan s).tb = s.tb
    ∧ (State.buildPlan s).mu = s.mu ∧ (State.buildPlan s).rc = s.rc ∧ (State.buildPlan s).he = s.he
    ∧ (State.buildPlan s).bus = s.bus ∧ (State.buildPlan s).sc = s.sc ∧ (State.buildPlan s).hl = s.hl := by
  unfold State.buildPlan
  (repeat' split) <;> simp

/-- It touches sp, cc alone. -/
@[simp] theorem State.plannerStrobe_keeps (s : State) :
    (State.plannerStrobe s).pending = s.pending ∧ (State.plannerStrobe s).drawn = s.drawn
    ∧ (State.plannerStrobe s).tb = s.tb ∧ (State.plannerStrobe s).mu = s.mu ∧ (State.plannerStrobe s).rc = s.rc
    ∧ (State.plannerStrobe s).he = s.he ∧ (State.plannerStrobe s).bus = s.bus ∧ (State.plannerStrobe s).sc = s.sc
    ∧ (State.plannerStrobe s).hl = s.hl := by
  unfold State.plannerStrobe
  simp

/-- It touches sp alone. -/
@[simp] theorem State.markReported_keeps (s : State) (slot : Nat) :
    (State.markReported s slot).pending = s.pending ∧ (State.markReported s slot).drawn = s.drawn
    ∧ (State.markReported s slot).tb = s.tb ∧ (State.markReported s slot).mu = s.mu
    ∧ (State.markReported s slot).rc = s.rc ∧ (State.markReported s slot).cc = s.cc
    ∧ (State.markReported s slot).he = s.he ∧ (State.markReported s slot).bus = s.bus
    ∧ (State.markReported s slot).sc = s.sc ∧ (State.markReported s slot).hl = s.hl := by
  exact ⟨rfl, rfl, rfl, rfl, rfl, rfl, rfl, rfl, rfl, rfl⟩

/-- It touches mu alone. -/
@[simp] theorem State.feedMap_keeps (s : State) (c : Cell) (l : Nat) :
    (State.feedMap s c l).pending = s.pending ∧ (State.feedMap s c l).drawn = s.drawn
    ∧ (State.feedMap s c l).tb = s.tb ∧ (State.feedMap s c l).sp = s.sp ∧ (State.feedMap s c l).rc = s.rc
    ∧ (State.feedMap s c l).cc = s.cc ∧ (State.feedMap s c l).he = s.he ∧ (State.feedMap s c l).bus = s.bus
    ∧ (State.feedMap s c l).sc = s.sc ∧ (State.feedMap s c l).hl = s.hl := by
  exact ⟨rfl, rfl, rfl, rfl, rfl, rfl, rfl, rfl, rfl, rfl⟩

/-- It touches mu alone. -/
@[simp] theorem State.recordHearing_keeps (s : State) (h : Handset) (l : Nat) (c : Cell) :
    (State.recordHearing s h l c).pending = s.pending ∧ (State.recordHearing s h l c).drawn = s.drawn
    ∧ (State.recordHearing s h l c).tb = s.tb ∧ (State.recordHearing s h l c).sp = s.sp
    ∧ (State.recordHearing s h l c).rc = s.rc ∧ (State.recordHearing s h l c).cc = s.cc
    ∧ (State.recordHearing s h l c).he = s.he ∧ (State.recordHearing s h l c).bus = s.bus
    ∧ (State.recordHearing s h l c).sc = s.sc ∧ (State.recordHearing s h l c).hl = s.hl := by
  exact ⟨rfl, rfl, rfl, rfl, rfl, rfl, rfl, rfl, rfl, rfl⟩

/-- It touches mu alone. -/
@[simp] theorem State.removeOverheard_keeps (s : State) (h : Handset) :
    (State.removeOverheard s h).pending = s.pending ∧ (State.removeOverheard s h).drawn = s.drawn
    ∧ (State.removeOverheard s h).tb = s.tb ∧ (State.removeOverheard s h).sp = s.sp
    ∧ (State.removeOverheard s h).rc = s.rc ∧ (State.removeOverheard s h).cc = s.cc
    ∧ (State.removeOverheard s h).he = s.he ∧ (State.removeOverheard s h).bus = s.bus
    ∧ (State.removeOverheard s h).sc = s.sc ∧ (State.removeOverheard s h).hl = s.hl := by
  exact ⟨rfl, rfl, rfl, rfl, rfl, rfl, rfl, rfl, rfl, rfl⟩

/-- It touches mu alone. -/
@[simp] theorem State.ageList_keeps (s : State) :
    (State.ageList s).pending = s.pending ∧ (State.ageList s).drawn = s.drawn ∧ (State.ageList s).tb = s.tb
    ∧ (State.ageList s).sp = s.sp ∧ (State.ageList s).rc = s.rc ∧ (State.ageList s).cc = s.cc
    ∧ (State.ageList s).he = s.he ∧ (State.ageList s).bus = s.bus ∧ (State.ageList s).sc = s.sc
    ∧ (State.ageList s).hl = s.hl := by
  exact ⟨rfl, rfl, rfl, rfl, rfl, rfl, rfl, rfl, rfl, rfl⟩

/-- It touches mu alone. -/
@[simp] theorem State.registerListen_keeps (s : State) (r : ListenRequest) :
    (State.registerListen s r).pending = s.pending ∧ (State.registerListen s r).drawn = s.drawn
    ∧ (State.registerListen s r).tb = s.tb ∧ (State.registerListen s r).sp = s.sp
    ∧ (State.registerListen s r).rc = s.rc ∧ (State.registerListen s r).cc = s.cc
    ∧ (State.registerListen s r).he = s.he ∧ (State.registerListen s r).bus = s.bus
    ∧ (State.registerListen s r).sc = s.sc ∧ (State.registerListen s r).hl = s.hl := by
  unfold State.registerListen
  (repeat' split) <;> simp

/-- It touches mu alone. -/
@[simp] theorem State.endListensFor_keeps (s : State) (h : Handset) :
    (State.endListensFor s h).pending = s.pending ∧ (State.endListensFor s h).drawn = s.drawn
    ∧ (State.endListensFor s h).tb = s.tb ∧ (State.endListensFor s h).sp = s.sp ∧ (State.endListensFor s h).rc = s.rc
    ∧ (State.endListensFor s h).cc = s.cc ∧ (State.endListensFor s h).he = s.he
    ∧ (State.endListensFor s h).bus = s.bus ∧ (State.endListensFor s h).sc = s.sc
    ∧ (State.endListensFor s h).hl = s.hl := by
  exact ⟨rfl, rfl, rfl, rfl, rfl, rfl, rfl, rfl, rfl, rfl⟩

/-- It touches mu alone. -/
@[simp] theorem State.endDueListens_keeps (s : State) :
    (State.endDueListens s).pending = s.pending ∧ (State.endDueListens s).drawn = s.drawn
    ∧ (State.endDueListens s).tb = s.tb ∧ (State.endDueListens s).sp = s.sp ∧ (State.endDueListens s).rc = s.rc
    ∧ (State.endDueListens s).cc = s.cc ∧ (State.endDueListens s).he = s.he ∧ (State.endDueListens s).bus = s.bus
    ∧ (State.endDueListens s).sc = s.sc ∧ (State.endDueListens s).hl = s.hl := by
  exact ⟨rfl, rfl, rfl, rfl, rfl, rfl, rfl, rfl, rfl, rfl⟩

/-- It touches mu alone. -/
@[simp] theorem State.measurementStrobe_keeps (s : State) :
    (State.measurementStrobe s).pending = s.pending ∧ (State.measurementStrobe s).drawn = s.drawn
    ∧ (State.measurementStrobe s).tb = s.tb ∧ (State.measurementStrobe s).sp = s.sp
    ∧ (State.measurementStrobe s).rc = s.rc ∧ (State.measurementStrobe s).cc = s.cc
    ∧ (State.measurementStrobe s).he = s.he ∧ (State.measurementStrobe s).bus = s.bus
    ∧ (State.measurementStrobe s).sc = s.sc ∧ (State.measurementStrobe s).hl = s.hl := by
  exact ⟨rfl, rfl, rfl, rfl, rfl, rfl, rfl, rfl, rfl, rfl⟩

/-- It touches mu alone. -/
@[simp] theorem State.becomesHeld_keeps (s : State) (h : Handset) :
    (State.becomesHeld s h).pending = s.pending ∧ (State.becomesHeld s h).drawn = s.drawn
    ∧ (State.becomesHeld s h).tb = s.tb ∧ (State.becomesHeld s h).sp = s.sp ∧ (State.becomesHeld s h).rc = s.rc
    ∧ (State.becomesHeld s h).cc = s.cc ∧ (State.becomesHeld s h).he = s.he ∧ (State.becomesHeld s h).bus = s.bus
    ∧ (State.becomesHeld s h).sc = s.sc ∧ (State.becomesHeld s h).hl = s.hl := by
  exact ⟨rfl, rfl, rfl, rfl, rfl, rfl, rfl, rfl, rfl, rfl⟩

/-- It touches cc alone. -/
@[simp] theorem State.moveCursor_keeps (s : State) (c : Cell) :
    (State.moveCursor s c).pending = s.pending ∧ (State.moveCursor s c).drawn = s.drawn
    ∧ (State.moveCursor s c).tb = s.tb ∧ (State.moveCursor s c).sp = s.sp ∧ (State.moveCursor s c).mu = s.mu
    ∧ (State.moveCursor s c).rc = s.rc ∧ (State.moveCursor s c).he = s.he ∧ (State.moveCursor s c).bus = s.bus
    ∧ (State.moveCursor s c).sc = s.sc ∧ (State.moveCursor s c).hl = s.hl := by
  exact ⟨rfl, rfl, rfl, rfl, rfl, rfl, rfl, rfl, rfl, rfl⟩

/-- It touches hl, rc alone. -/
@[simp] theorem State.failEntry_keeps (s : State) (i : Nat) (r : Reason) (o : Nat) :
    (State.failEntry s i r o).pending = s.pending ∧ (State.failEntry s i r o).drawn = s.drawn
    ∧ (State.failEntry s i r o).tb = s.tb ∧ (State.failEntry s i r o).sp = s.sp ∧ (State.failEntry s i r o).mu = s.mu
    ∧ (State.failEntry s i r o).cc = s.cc ∧ (State.failEntry s i r o).he = s.he
    ∧ (State.failEntry s i r o).bus = s.bus ∧ (State.failEntry s i r o).sc = s.sc := by
  unfold State.failEntry
  (repeat' split) <;> simp

/-- It touches hl, rc, he alone. -/
@[simp] theorem State.failAttempt_keeps (s : State) (q : Nat) (r : Reason) (o : Nat) :
    (State.failAttempt s q r o).pending = s.pending ∧ (State.failAttempt s q r o).drawn = s.drawn
    ∧ (State.failAttempt s q r o).tb = s.tb ∧ (State.failAttempt s q r o).sp = s.sp
    ∧ (State.failAttempt s q r o).mu = s.mu ∧ (State.failAttempt s q r o).cc = s.cc
    ∧ (State.failAttempt s q r o).bus = s.bus ∧ (State.failAttempt s q r o).sc = s.sc := by
  unfold State.failAttempt
  (repeat' split) <;> simp

/-- It touches rc alone. -/
@[simp] theorem State.disarmFor_keeps (s : State) (i : Nat) (k : FireKind) :
    (State.disarmFor s i k).pending = s.pending ∧ (State.disarmFor s i k).drawn = s.drawn
    ∧ (State.disarmFor s i k).tb = s.tb ∧ (State.disarmFor s i k).sp = s.sp ∧ (State.disarmFor s i k).mu = s.mu
    ∧ (State.disarmFor s i k).cc = s.cc ∧ (State.disarmFor s i k).he = s.he ∧ (State.disarmFor s i k).bus = s.bus
    ∧ (State.disarmFor s i k).sc = s.sc ∧ (State.disarmFor s i k).hl = s.hl := by
  unfold State.disarmFor
  (repeat' split) <;> simp

/-- It touches hl, rc, he, bus alone. -/
@[simp] theorem State.fire_keeps (s : State) (i : Nat) (e : Entry) (k : FireKind) (r : Nat) :
    (State.fire s i e k r).pending = s.pending ∧ (State.fire s i e k r).drawn = s.drawn
    ∧ (State.fire s i e k r).tb = s.tb ∧ (State.fire s i e k r).sp = s.sp ∧ (State.fire s i e k r).mu = s.mu
    ∧ (State.fire s i e k r).cc = s.cc ∧ (State.fire s i e k r).sc = s.sc := by
  simp only [State.fire]
  split <;> simp

/-- It touches hl, rc, he, bus alone. -/
@[simp] theorem State.trigger_keeps (s : State) (i : Nat) :
    (State.trigger s i).pending = s.pending ∧ (State.trigger s i).drawn = s.drawn ∧ (State.trigger s i).tb = s.tb
    ∧ (State.trigger s i).sp = s.sp ∧ (State.trigger s i).mu = s.mu ∧ (State.trigger s i).cc = s.cc
    ∧ (State.trigger s i).sc = s.sc := by
  unfold State.trigger
  (repeat' split) <;> simp

/-- It touches hl, rc, he, bus alone. -/
@[simp] theorem State.testTrigger_keeps (s : State) (i : Nat) :
    (State.testTrigger s i).pending = s.pending ∧ (State.testTrigger s i).drawn = s.drawn
    ∧ (State.testTrigger s i).tb = s.tb ∧ (State.testTrigger s i).sp = s.sp ∧ (State.testTrigger s i).mu = s.mu
    ∧ (State.testTrigger s i).cc = s.cc ∧ (State.testTrigger s i).sc = s.sc := by
  unfold State.testTrigger
  simp

/-- It touches hl, rc, he, bus alone. -/
@[simp] theorem askFrom_keeps (s : State) (q : Nat) (o : OutRecord) (e : Entry) (l : List Candidate) (r : Reason) (n : Nat) :
    (askFrom q o e l r n s).pending = s.pending ∧ (askFrom q o e l r n s).drawn = s.drawn
    ∧ (askFrom q o e l r n s).tb = s.tb ∧ (askFrom q o e l r n s).sp = s.sp ∧ (askFrom q o e l r n s).mu = s.mu
    ∧ (askFrom q o e l r n s).cc = s.cc ∧ (askFrom q o e l r n s).sc = s.sc := by
  induction l generalizing r n with
  | nil => simp [askFrom]
  | cons c rest ih =>
    unfold askFrom
    split
    · simp
    · exact ih _ _

/-- It touches hl, rc, he, bus alone. -/
@[simp] theorem State.closeWindow_keeps (s : State) (r : Nat) :
    (State.closeWindow s r).pending = s.pending ∧ (State.closeWindow s r).drawn = s.drawn
    ∧ (State.closeWindow s r).tb = s.tb ∧ (State.closeWindow s r).sp = s.sp ∧ (State.closeWindow s r).mu = s.mu
    ∧ (State.closeWindow s r).cc = s.cc ∧ (State.closeWindow s r).sc = s.sc := by
  unfold State.closeWindow
  (repeat' split) <;> simp

/-- It touches hl, rc, he, bus alone. -/
@[simp] theorem State.nextCandidate_keeps (s : State) (r : Nat) (k : Reason) :
    (State.nextCandidate s r k).pending = s.pending ∧ (State.nextCandidate s r k).drawn = s.drawn
    ∧ (State.nextCandidate s r k).tb = s.tb ∧ (State.nextCandidate s r k).sp = s.sp
    ∧ (State.nextCandidate s r k).mu = s.mu ∧ (State.nextCandidate s r k).cc = s.cc
    ∧ (State.nextCandidate s r k).sc = s.sc := by
  unfold State.nextCandidate
  (repeat' split) <;> simp

/-- It touches he alone. -/
@[simp] theorem State.takeOffer_keeps (s : State) (n : Notice) (k : BitVec 8) (m f : Nat) :
    (State.takeOffer s n k m f).pending = s.pending ∧ (State.takeOffer s n k m f).drawn = s.drawn
    ∧ (State.takeOffer s n k m f).tb = s.tb ∧ (State.takeOffer s n k m f).sp = s.sp
    ∧ (State.takeOffer s n k m f).mu = s.mu ∧ (State.takeOffer s n k m f).rc = s.rc
    ∧ (State.takeOffer s n k m f).cc = s.cc ∧ (State.takeOffer s n k m f).bus = s.bus
    ∧ (State.takeOffer s n k m f).sc = s.sc ∧ (State.takeOffer s n k m f).hl = s.hl := by
  unfold State.takeOffer
  (repeat' split) <;> simp

/-- It touches hl, rc, he, bus alone. -/
@[simp] theorem State.takeDecline_keeps (s : State) (n : Notice) (k : BitVec 8) (r : DeclineReason) :
    (State.takeDecline s n k r).pending = s.pending ∧ (State.takeDecline s n k r).drawn = s.drawn
    ∧ (State.takeDecline s n k r).tb = s.tb ∧ (State.takeDecline s n k r).sp = s.sp
    ∧ (State.takeDecline s n k r).mu = s.mu ∧ (State.takeDecline s n k r).cc = s.cc
    ∧ (State.takeDecline s n k r).sc = s.sc := by
  unfold State.takeDecline
  (repeat' split) <;> simp

/-- It touches sp, hl, rc, he alone. -/
@[simp] theorem State.actOnTake_keeps (s : State) (r : Nat) (o : OutRecord) (t : Nat) (m : Mark) (c : Cell) :
    (State.actOnTake s r o t m c).pending = s.pending ∧ (State.actOnTake s r o t m c).drawn = s.drawn
    ∧ (State.actOnTake s r o t m c).tb = s.tb ∧ (State.actOnTake s r o t m c).mu = s.mu
    ∧ (State.actOnTake s r o t m c).cc = s.cc ∧ (State.actOnTake s r o t m c).bus = s.bus
    ∧ (State.actOnTake s r o t m c).sc = s.sc := by
  unfold State.actOnTake State.proceed
  (repeat' split) <;> simp

/-- It touches sp, hl, rc, he alone. -/
@[simp] theorem State.takeTake_keeps (s : State) (n : Notice) (k : BitVec 8) (c : Cell) :
    (State.takeTake s n k c).pending = s.pending ∧ (State.takeTake s n k c).drawn = s.drawn
    ∧ (State.takeTake s n k c).tb = s.tb ∧ (State.takeTake s n k c).mu = s.mu ∧ (State.takeTake s n k c).cc = s.cc
    ∧ (State.takeTake s n k c).bus = s.bus ∧ (State.takeTake s n k c).sc = s.sc := by
  unfold State.takeTake
  (repeat' split) <;> simp

/-- It touches sp, he alone. -/
@[simp] theorem State.startFallback_keeps (s : State) (r : Nat) :
    (State.startFallback s r).pending = s.pending ∧ (State.startFallback s r).drawn = s.drawn
    ∧ (State.startFallback s r).tb = s.tb ∧ (State.startFallback s r).mu = s.mu
    ∧ (State.startFallback s r).rc = s.rc ∧ (State.startFallback s r).cc = s.cc
    ∧ (State.startFallback s r).bus = s.bus ∧ (State.startFallback s r).sc = s.sc
    ∧ (State.startFallback s r).hl = s.hl := by
  unfold State.startFallback
  (repeat' split) <;> simp

/-- It touches sp, hl, rc, he alone. -/
@[simp] theorem State.returnToOld_keeps (s : State) (r : Nat) (o : OutRecord) (e : Entry) (t : Nat) :
    (State.returnToOld s r o e t).pending = s.pending ∧ (State.returnToOld s r o e t).drawn = s.drawn
    ∧ (State.returnToOld s r o e t).tb = s.tb ∧ (State.returnToOld s r o e t).mu = s.mu
    ∧ (State.returnToOld s r o e t).cc = s.cc ∧ (State.returnToOld s r o e t).bus = s.bus
    ∧ (State.returnToOld s r o e t).sc = s.sc := by
  unfold State.returnToOld
  (repeat' split) <;> simp

/-- It touches sp, rc alone. -/
@[simp] theorem State.stayOnOld_keeps (s : State) (i : Nat) (e : Entry) :
    (State.stayOnOld s i e).pending = s.pending ∧ (State.stayOnOld s i e).drawn = s.drawn
    ∧ (State.stayOnOld s i e).tb = s.tb ∧ (State.stayOnOld s i e).mu = s.mu ∧ (State.stayOnOld s i e).cc = s.cc
    ∧ (State.stayOnOld s i e).he = s.he ∧ (State.stayOnOld s i e).bus = s.bus ∧ (State.stayOnOld s i e).sc = s.sc
    ∧ (State.stayOnOld s i e).hl = s.hl := by
  unfold State.stayOnOld
  (repeat' split) <;> simp

/-- It touches bus, hl alone. -/
@[simp] theorem State.decideOffer_keeps (s : State) (h : Handset) (q : Nat) (k : BitVec 8) (p : Stamp) :
    (State.decideOffer s h q k p).pending = s.pending ∧ (State.decideOffer s h q k p).drawn = s.drawn
    ∧ (State.decideOffer s h q k p).tb = s.tb ∧ (State.decideOffer s h q k p).sp = s.sp
    ∧ (State.decideOffer s h q k p).mu = s.mu ∧ (State.decideOffer s h q k p).rc = s.rc
    ∧ (State.decideOffer s h q k p).cc = s.cc ∧ (State.decideOffer s h q k p).he = s.he
    ∧ (State.decideOffer s h q k p).sc = s.sc := by
  unfold State.decideOffer
  (repeat' split) <;> simp

/-- It touches mu, bus, hl alone. -/
@[simp] theorem State.takeSeek_keeps (s : State) (n : Notice) (k : BitVec 8) (c : Cell) :
    (State.takeSeek s n k c).pending = s.pending ∧ (State.takeSeek s n k c).drawn = s.drawn
    ∧ (State.takeSeek s n k c).tb = s.tb ∧ (State.takeSeek s n k c).sp = s.sp ∧ (State.takeSeek s n k c).rc = s.rc
    ∧ (State.takeSeek s n k c).cc = s.cc ∧ (State.takeSeek s n k c).he = s.he ∧ (State.takeSeek s n k c).sc = s.sc := by
  unfold State.takeSeek
  (repeat' split) <;> simp

/-- It touches bus, hl alone. -/
@[simp] theorem State.answerListen_keeps (s : State) (r : ListenRequest) :
    (State.answerListen s r).pending = s.pending ∧ (State.answerListen s r).drawn = s.drawn
    ∧ (State.answerListen s r).tb = s.tb ∧ (State.answerListen s r).sp = s.sp ∧ (State.answerListen s r).mu = s.mu
    ∧ (State.answerListen s r).rc = s.rc ∧ (State.answerListen s r).cc = s.cc ∧ (State.answerListen s r).he = s.he
    ∧ (State.answerListen s r).sc = s.sc := by
  unfold State.answerListen
  (repeat' split) <;> simp

/-- Answering targeted listens touches bus, hl alone. -/
@[simp] theorem answerListens_keep (l : List ListenRequest) (s : State) :
    (l.foldl State.answerListen s).pending = s.pending ∧ (l.foldl State.answerListen s).drawn = s.drawn
    ∧ (l.foldl State.answerListen s).tb = s.tb ∧ (l.foldl State.answerListen s).sp = s.sp
    ∧ (l.foldl State.answerListen s).mu = s.mu ∧ (l.foldl State.answerListen s).rc = s.rc
    ∧ (l.foldl State.answerListen s).cc = s.cc ∧ (l.foldl State.answerListen s).he = s.he
    ∧ (l.foldl State.answerListen s).sc = s.sc := by
  induction l generalizing s with
  | nil => simp
  | cons r rest ih =>
    have h := ih (s.answerListen r)
    simpa using h

/-- It touches mu, bus, hl alone. -/
@[simp] theorem State.hearing_keeps (s : State) (h : Handset) (l : Nat) (c : Cell) :
    (State.hearing s h l c).pending = s.pending ∧ (State.hearing s h l c).drawn = s.drawn
    ∧ (State.hearing s h l c).tb = s.tb ∧ (State.hearing s h l c).sp = s.sp ∧ (State.hearing s h l c).rc = s.rc
    ∧ (State.hearing s h l c).cc = s.cc ∧ (State.hearing s h l c).he = s.he ∧ (State.hearing s h l c).sc = s.sc := by
  unfold State.hearing
  (repeat' split) <;> simp

/-- It touches sp alone. -/
@[simp] theorem State.commit_keeps (s : State) (slot : Nat) (e : SlotEntry) :
    (State.commit s slot e).pending = s.pending ∧ (State.commit s slot e).drawn = s.drawn
    ∧ (State.commit s slot e).tb = s.tb ∧ (State.commit s slot e).mu = s.mu ∧ (State.commit s slot e).rc = s.rc
    ∧ (State.commit s slot e).cc = s.cc ∧ (State.commit s slot e).he = s.he ∧ (State.commit s slot e).bus = s.bus
    ∧ (State.commit s slot e).sc = s.sc ∧ (State.commit s slot e).hl = s.hl := by
  unfold State.commit
  (repeat' split) <;> simp

/-- It touches sp alone. -/
@[simp] theorem State.requestChange_keeps (s : State) (c : PlanChange) :
    (State.requestChange s c).pending = s.pending ∧ (State.requestChange s c).drawn = s.drawn
    ∧ (State.requestChange s c).tb = s.tb ∧ (State.requestChange s c).mu = s.mu ∧ (State.requestChange s c).rc = s.rc
    ∧ (State.requestChange s c).cc = s.cc ∧ (State.requestChange s c).he = s.he
    ∧ (State.requestChange s c).bus = s.bus ∧ (State.requestChange s c).sc = s.sc
    ∧ (State.requestChange s c).hl = s.hl := by
  unfold State.requestChange
  (repeat' split) <;> simp

/-- It touches sp, mu, rc, he alone. -/
@[simp] theorem State.reserve_keeps (s : State) (n : Notice) (k : BitVec 8) (t : Tag) (c : Cell) (l i r : Nat) :
    (State.reserve s n k t c l i r).pending = s.pending ∧ (State.reserve s n k t c l i r).drawn = s.drawn
    ∧ (State.reserve s n k t c l i r).tb = s.tb ∧ (State.reserve s n k t c l i r).cc = s.cc
    ∧ (State.reserve s n k t c l i r).bus = s.bus ∧ (State.reserve s n k t c l i r).sc = s.sc
    ∧ (State.reserve s n k t c l i r).hl = s.hl := by
  unfold State.reserve
  simp

/-- It touches sp, mu, rc, he, cc, bus, hl alone. -/
@[simp] theorem State.acceptTransfer_keeps (s : State) (n : Notice) (k : BitVec 8) (t : Tag) (l i r : Nat) :
    (State.acceptTransfer s n k t l i r).pending = s.pending ∧ (State.acceptTransfer s n k t l i r).drawn = s.drawn
    ∧ (State.acceptTransfer s n k t l i r).tb = s.tb ∧ (State.acceptTransfer s n k t l i r).sc = s.sc := by
  unfold State.acceptTransfer
  (repeat' split) <;> simp

/-- It touches sp, mu, rc, he, cc, bus, hl alone. -/
@[simp] theorem State.takeTransfer_keeps (s : State) (n : Notice) (k : BitVec 8) (t : Tag) :
    (State.takeTransfer s n k t).pending = s.pending ∧ (State.takeTransfer s n k t).drawn = s.drawn
    ∧ (State.takeTransfer s n k t).tb = s.tb ∧ (State.takeTransfer s n k t).sc = s.sc := by
  unfold State.takeTransfer
  (repeat' split) <;> simp

/-- It touches he alone. -/
@[simp] theorem State.startAwaiting_keeps (s : State) (r : Nat) :
    (State.startAwaiting s r).pending = s.pending ∧ (State.startAwaiting s r).drawn = s.drawn
    ∧ (State.startAwaiting s r).tb = s.tb ∧ (State.startAwaiting s r).sp = s.sp ∧ (State.startAwaiting s r).mu = s.mu
    ∧ (State.startAwaiting s r).rc = s.rc ∧ (State.startAwaiting s r).cc = s.cc
    ∧ (State.startAwaiting s r).bus = s.bus ∧ (State.startAwaiting s r).sc = s.sc
    ∧ (State.startAwaiting s r).hl = s.hl := by
  unfold State.startAwaiting
  (repeat' split) <;> simp

/-- It touches rc, bus, hl, he alone. -/
@[simp] theorem State.arrive_keeps (s : State) (r i : Nat) (o : InRecord) (e : Entry) (c : Cell) (t : Tag) :
    (State.arrive s r i o e c t).pending = s.pending ∧ (State.arrive s r i o e c t).drawn = s.drawn
    ∧ (State.arrive s r i o e c t).tb = s.tb ∧ (State.arrive s r i o e c t).sp = s.sp
    ∧ (State.arrive s r i o e c t).mu = s.mu ∧ (State.arrive s r i o e c t).cc = s.cc
    ∧ (State.arrive s r i o e c t).sc = s.sc := by
  unfold State.arrive
  simp

/-- It touches cc alone. -/
@[simp] theorem State.addSetup_keeps (s : State) (i : Nat) :
    (State.addSetup s i).pending = s.pending ∧ (State.addSetup s i).drawn = s.drawn ∧ (State.addSetup s i).tb = s.tb
    ∧ (State.addSetup s i).sp = s.sp ∧ (State.addSetup s i).mu = s.mu ∧ (State.addSetup s i).rc = s.rc
    ∧ (State.addSetup s i).he = s.he ∧ (State.addSetup s i).bus = s.bus ∧ (State.addSetup s i).sc = s.sc
    ∧ (State.addSetup s i).hl = s.hl := by
  exact ⟨rfl, rfl, rfl, rfl, rfl, rfl, rfl, rfl, rfl, rfl⟩

/-- It touches rc, cc, sp alone. -/
@[simp] theorem State.beginSetup_keeps (s : State) (i : Nat) (h : Handset) (c : Cell) (t : Tag) :
    (State.beginSetup s i h c t).pending = s.pending ∧ (State.beginSetup s i h c t).drawn = s.drawn
    ∧ (State.beginSetup s i h c t).tb = s.tb ∧ (State.beginSetup s i h c t).mu = s.mu
    ∧ (State.beginSetup s i h c t).he = s.he ∧ (State.beginSetup s i h c t).bus = s.bus
    ∧ (State.beginSetup s i h c t).sc = s.sc ∧ (State.beginSetup s i h c t).hl = s.hl := by
  unfold State.beginSetup
  simp

/-- It touches rc, cc, hl alone. -/
@[simp] theorem State.callUp_keeps (s : State) (i : Nat) (e : Entry) (c : Cell) (t : Tag) (k : Link) :
    (State.callUp s i e c t k).pending = s.pending ∧ (State.callUp s i e c t k).drawn = s.drawn
    ∧ (State.callUp s i e c t k).tb = s.tb ∧ (State.callUp s i e c t k).sp = s.sp
    ∧ (State.callUp s i e c t k).mu = s.mu ∧ (State.callUp s i e c t k).he = s.he
    ∧ (State.callUp s i e c t k).bus = s.bus ∧ (State.callUp s i e c t k).sc = s.sc := by
  unfold State.callUp
  simp

/-- It touches cc, hl alone. -/
@[simp] theorem State.pageFails_keeps (s : State) (h : Handset) (r : Reason) :
    (State.pageFails s h r).pending = s.pending ∧ (State.pageFails s h r).drawn = s.drawn
    ∧ (State.pageFails s h r).tb = s.tb ∧ (State.pageFails s h r).sp = s.sp ∧ (State.pageFails s h r).mu = s.mu
    ∧ (State.pageFails s h r).rc = s.rc ∧ (State.pageFails s h r).he = s.he ∧ (State.pageFails s h r).bus = s.bus
    ∧ (State.pageFails s h r).sc = s.sc := by
  unfold State.pageFails
  (repeat' split) <;> simp

/-- It touches rc alone. -/
@[simp] theorem State.setFind_keeps (s : State) (r : Nat) (f : Option FindRecord) :
    (State.setFind s r f).pending = s.pending ∧ (State.setFind s r f).drawn = s.drawn
    ∧ (State.setFind s r f).tb = s.tb ∧ (State.setFind s r f).sp = s.sp ∧ (State.setFind s r f).mu = s.mu
    ∧ (State.setFind s r f).cc = s.cc ∧ (State.setFind s r f).he = s.he ∧ (State.setFind s r f).bus = s.bus
    ∧ (State.setFind s r f).sc = s.sc ∧ (State.setFind s r f).hl = s.hl := by
  exact ⟨rfl, rfl, rfl, rfl, rfl, rfl, rfl, rfl, rfl, rfl⟩

/-- It touches rc alone. -/
@[simp] theorem State.hearHeld_keeps (s : State) (i l : Nat) :
    (State.hearHeld s i l).pending = s.pending ∧ (State.hearHeld s i l).drawn = s.drawn
    ∧ (State.hearHeld s i l).tb = s.tb ∧ (State.hearHeld s i l).sp = s.sp ∧ (State.hearHeld s i l).mu = s.mu
    ∧ (State.hearHeld s i l).cc = s.cc ∧ (State.hearHeld s i l).he = s.he ∧ (State.hearHeld s i l).bus = s.bus
    ∧ (State.hearHeld s i l).sc = s.sc ∧ (State.hearHeld s i l).hl = s.hl := by
  unfold State.hearHeld
  simp

/-- It touches rc alone. -/
@[simp] theorem State.hearUplink_keeps (s : State) (h : Handset) (l : Nat) :
    (State.hearUplink s h l).pending = s.pending ∧ (State.hearUplink s h l).drawn = s.drawn
    ∧ (State.hearUplink s h l).tb = s.tb ∧ (State.hearUplink s h l).sp = s.sp ∧ (State.hearUplink s h l).mu = s.mu
    ∧ (State.hearUplink s h l).cc = s.cc ∧ (State.hearUplink s h l).he = s.he ∧ (State.hearUplink s h l).bus = s.bus
    ∧ (State.hearUplink s h l).sc = s.sc ∧ (State.hearUplink s h l).hl = s.hl := by
  unfold State.hearUplink
  (repeat' split) <;> simp

/-- It touches rc, sp, hl alone. -/
@[simp] theorem State.takePresence_keeps (s : State) (h : Handset) (l : Nat) :
    (State.takePresence s h l).pending = s.pending ∧ (State.takePresence s h l).drawn = s.drawn
    ∧ (State.takePresence s h l).tb = s.tb ∧ (State.takePresence s h l).mu = s.mu
    ∧ (State.takePresence s h l).cc = s.cc ∧ (State.takePresence s h l).he = s.he
    ∧ (State.takePresence s h l).bus = s.bus ∧ (State.takePresence s h l).sc = s.sc := by
  unfold State.takePresence
  (repeat' split) <;> simp

/-- It touches rc, cc, hl alone. -/
@[simp] theorem State.expireIdle_keeps (s : State) (i : Nat) (e : Entry) :
    (State.expireIdle s i e).pending = s.pending ∧ (State.expireIdle s i e).drawn = s.drawn
    ∧ (State.expireIdle s i e).tb = s.tb ∧ (State.expireIdle s i e).sp = s.sp ∧ (State.expireIdle s i e).mu = s.mu
    ∧ (State.expireIdle s i e).he = s.he ∧ (State.expireIdle s i e).bus = s.bus ∧ (State.expireIdle s i e).sc = s.sc := by
  unfold State.expireIdle
  simp

/-- It touches rc alone. -/
@[simp] theorem State.takeAnswer_keeps (s : State) (n : Notice) (k : BitVec 8) (f : Bool) :
    (State.takeAnswer s n k f).pending = s.pending ∧ (State.takeAnswer s n k f).drawn = s.drawn
    ∧ (State.takeAnswer s n k f).tb = s.tb ∧ (State.takeAnswer s n k f).sp = s.sp
    ∧ (State.takeAnswer s n k f).mu = s.mu ∧ (State.takeAnswer s n k f).cc = s.cc
    ∧ (State.takeAnswer s n k f).he = s.he ∧ (State.takeAnswer s n k f).bus = s.bus
    ∧ (State.takeAnswer s n k f).sc = s.sc ∧ (State.takeAnswer s n k f).hl = s.hl := by
  unfold State.takeAnswer
  (repeat' split) <;> simp

/-- It touches hl alone. -/
@[simp] theorem State.reportFind_keeps (s : State) (f : FindRecord) :
    (State.reportFind s f).pending = s.pending ∧ (State.reportFind s f).drawn = s.drawn
    ∧ (State.reportFind s f).tb = s.tb ∧ (State.reportFind s f).sp = s.sp ∧ (State.reportFind s f).mu = s.mu
    ∧ (State.reportFind s f).rc = s.rc ∧ (State.reportFind s f).cc = s.cc ∧ (State.reportFind s f).he = s.he
    ∧ (State.reportFind s f).bus = s.bus ∧ (State.reportFind s f).sc = s.sc := by
  unfold State.reportFind State.locatedHere
  (repeat' split) <;> simp

/-- It touches rc, hl alone. -/
@[simp] theorem State.expireFind_keeps (s : State) (r : Nat) (f : FindRecord) :
    (State.expireFind s r f).pending = s.pending ∧ (State.expireFind s r f).drawn = s.drawn
    ∧ (State.expireFind s r f).tb = s.tb ∧ (State.expireFind s r f).sp = s.sp ∧ (State.expireFind s r f).mu = s.mu
    ∧ (State.expireFind s r f).cc = s.cc ∧ (State.expireFind s r f).he = s.he ∧ (State.expireFind s r f).bus = s.bus
    ∧ (State.expireFind s r f).sc = s.sc := by
  unfold State.expireFind
  simp

/-- It touches bus, hl alone. -/
@[simp] theorem State.takeFind_keeps (s : State) (n : Notice) (k : BitVec 8) :
    (State.takeFind s n k).pending = s.pending ∧ (State.takeFind s n k).drawn = s.drawn
    ∧ (State.takeFind s n k).tb = s.tb ∧ (State.takeFind s n k).sp = s.sp ∧ (State.takeFind s n k).mu = s.mu
    ∧ (State.takeFind s n k).rc = s.rc ∧ (State.takeFind s n k).cc = s.cc ∧ (State.takeFind s n k).he = s.he
    ∧ (State.takeFind s n k).sc = s.sc := by
  unfold State.takeFind
  (repeat' split) <;> simp

/-- It touches rc alone. -/
@[simp] theorem State.measure_keeps (s : State) (i : Nat) (r : LinkReport) :
    (State.measure s i r).pending = s.pending ∧ (State.measure s i r).drawn = s.drawn
    ∧ (State.measure s i r).tb = s.tb ∧ (State.measure s i r).sp = s.sp ∧ (State.measure s i r).mu = s.mu
    ∧ (State.measure s i r).cc = s.cc ∧ (State.measure s i r).he = s.he ∧ (State.measure s i r).bus = s.bus
    ∧ (State.measure s i r).sc = s.sc ∧ (State.measure s i r).hl = s.hl := by
  unfold State.measure
  simp

/-- It touches bus, hl, rc alone. -/
@[simp] theorem State.busLoss_keeps (s : State) :
    (State.busLoss s).pending = s.pending ∧ (State.busLoss s).drawn = s.drawn ∧ (State.busLoss s).tb = s.tb
    ∧ (State.busLoss s).sp = s.sp ∧ (State.busLoss s).mu = s.mu ∧ (State.busLoss s).cc = s.cc
    ∧ (State.busLoss s).he = s.he ∧ (State.busLoss s).sc = s.sc := by
  unfold State.busLoss
  (repeat' split) <;> simp

/-- It touches tb alone. -/
@[simp] theorem State.loseMark_keeps (s : State) :
    (State.loseMark s).pending = s.pending ∧ (State.loseMark s).drawn = s.drawn ∧ (State.loseMark s).sp = s.sp
    ∧ (State.loseMark s).mu = s.mu ∧ (State.loseMark s).rc = s.rc ∧ (State.loseMark s).cc = s.cc
    ∧ (State.loseMark s).he = s.he ∧ (State.loseMark s).bus = s.bus ∧ (State.loseMark s).sc = s.sc
    ∧ (State.loseMark s).hl = s.hl := by
  exact ⟨rfl, rfl, rfl, rfl, rfl, rfl, rfl, rfl, rfl, rfl⟩

/-- It touches tb alone. -/
@[simp] theorem State.countFrame_keeps (s : State) :
    (State.countFrame s).pending = s.pending ∧ (State.countFrame s).drawn = s.drawn ∧ (State.countFrame s).sp = s.sp
    ∧ (State.countFrame s).mu = s.mu ∧ (State.countFrame s).rc = s.rc ∧ (State.countFrame s).cc = s.cc
    ∧ (State.countFrame s).he = s.he ∧ (State.countFrame s).bus = s.bus ∧ (State.countFrame s).sc = s.sc
    ∧ (State.countFrame s).hl = s.hl := by
  exact ⟨rfl, rfl, rfl, rfl, rfl, rfl, rfl, rfl, rfl, rfl⟩

/-- It touches tb alone. -/
@[simp] theorem State.advanceMark_keeps (s : State) :
    (State.advanceMark s).pending = s.pending ∧ (State.advanceMark s).drawn = s.drawn
    ∧ (State.advanceMark s).sp = s.sp ∧ (State.advanceMark s).mu = s.mu ∧ (State.advanceMark s).rc = s.rc
    ∧ (State.advanceMark s).cc = s.cc ∧ (State.advanceMark s).he = s.he ∧ (State.advanceMark s).bus = s.bus
    ∧ (State.advanceMark s).sc = s.sc ∧ (State.advanceMark s).hl = s.hl := by
  exact ⟨rfl, rfl, rfl, rfl, rfl, rfl, rfl, rfl, rfl, rfl⟩

/-- It touches tb alone. -/
@[simp] theorem State.disarmWatch_keeps (s : State) :
    (State.disarmWatch s).pending = s.pending ∧ (State.disarmWatch s).drawn = s.drawn
    ∧ (State.disarmWatch s).sp = s.sp ∧ (State.disarmWatch s).mu = s.mu ∧ (State.disarmWatch s).rc = s.rc
    ∧ (State.disarmWatch s).cc = s.cc ∧ (State.disarmWatch s).he = s.he ∧ (State.disarmWatch s).bus = s.bus
    ∧ (State.disarmWatch s).sc = s.sc ∧ (State.disarmWatch s).hl = s.hl := by
  exact ⟨rfl, rfl, rfl, rfl, rfl, rfl, rfl, rfl, rfl, rfl⟩

/-- It touches sc alone. -/
@[simp] theorem State.setQuiet_keeps (s : State) (q : Option Nat) :
    (State.setQuiet s q).pending = s.pending ∧ (State.setQuiet s q).drawn = s.drawn ∧ (State.setQuiet s q).tb = s.tb
    ∧ (State.setQuiet s q).sp = s.sp ∧ (State.setQuiet s q).mu = s.mu ∧ (State.setQuiet s q).rc = s.rc
    ∧ (State.setQuiet s q).cc = s.cc ∧ (State.setQuiet s q).he = s.he ∧ (State.setQuiet s q).bus = s.bus
    ∧ (State.setQuiet s q).hl = s.hl := by
  exact ⟨rfl, rfl, rfl, rfl, rfl, rfl, rfl, rfl, rfl, rfl⟩

/-- It touches sc alone. -/
@[simp] theorem State.setDrain_keeps (s : State) (q : Option Nat) :
    (State.setDrain s q).pending = s.pending ∧ (State.setDrain s q).drawn = s.drawn ∧ (State.setDrain s q).tb = s.tb
    ∧ (State.setDrain s q).sp = s.sp ∧ (State.setDrain s q).mu = s.mu ∧ (State.setDrain s q).rc = s.rc
    ∧ (State.setDrain s q).cc = s.cc ∧ (State.setDrain s q).he = s.he ∧ (State.setDrain s q).bus = s.bus
    ∧ (State.setDrain s q).hl = s.hl := by
  exact ⟨rfl, rfl, rfl, rfl, rfl, rfl, rfl, rfl, rfl, rfl⟩

/-- It touches bus alone. -/
@[simp] theorem State.advanceIdle_keeps (s : State) (n : Nat) :
    (State.advanceIdle s n).pending = s.pending ∧ (State.advanceIdle s n).drawn = s.drawn
    ∧ (State.advanceIdle s n).tb = s.tb ∧ (State.advanceIdle s n).sp = s.sp ∧ (State.advanceIdle s n).mu = s.mu
    ∧ (State.advanceIdle s n).rc = s.rc ∧ (State.advanceIdle s n).cc = s.cc ∧ (State.advanceIdle s n).he = s.he
    ∧ (State.advanceIdle s n).sc = s.sc ∧ (State.advanceIdle s n).hl = s.hl := by
  unfold State.advanceIdle
  (repeat' split) <;> simp

/-- It touches bus alone. -/
@[simp] theorem State.tryBegin_keeps (s : State) (b : Bool) :
    (State.tryBegin s b).pending = s.pending ∧ (State.tryBegin s b).drawn = s.drawn ∧ (State.tryBegin s b).tb = s.tb
    ∧ (State.tryBegin s b).sp = s.sp ∧ (State.tryBegin s b).mu = s.mu ∧ (State.tryBegin s b).rc = s.rc
    ∧ (State.tryBegin s b).cc = s.cc ∧ (State.tryBegin s b).he = s.he ∧ (State.tryBegin s b).sc = s.sc
    ∧ (State.tryBegin s b).hl = s.hl := by
  unfold State.tryBegin State.beginNotice
  (repeat' split) <;> simp

/-- It touches bus alone. -/
@[simp] theorem State.dropReceived_keeps (s : State) :
    (State.dropReceived s).pending = s.pending ∧ (State.dropReceived s).drawn = s.drawn
    ∧ (State.dropReceived s).tb = s.tb ∧ (State.dropReceived s).sp = s.sp ∧ (State.dropReceived s).mu = s.mu
    ∧ (State.dropReceived s).rc = s.rc ∧ (State.dropReceived s).cc = s.cc ∧ (State.dropReceived s).he = s.he
    ∧ (State.dropReceived s).sc = s.sc ∧ (State.dropReceived s).hl = s.hl := by
  exact ⟨rfl, rfl, rfl, rfl, rfl, rfl, rfl, rfl, rfl, rfl⟩

/-- It touches bus, hl alone. -/
@[simp] theorem State.receive_keeps (s : State) (n : Notice) :
    (State.receive s n).pending = s.pending ∧ (State.receive s n).drawn = s.drawn ∧ (State.receive s n).tb = s.tb
    ∧ (State.receive s n).sp = s.sp ∧ (State.receive s n).mu = s.mu ∧ (State.receive s n).rc = s.rc
    ∧ (State.receive s n).cc = s.cc ∧ (State.receive s n).he = s.he ∧ (State.receive s n).sc = s.sc := by
  unfold State.receive
  (repeat' split) <;> simp

/-- It touches hl alone. -/
@[simp] theorem State.respond_keeps (s : State) (r : Response) :
    (State.respond s r).pending = s.pending ∧ (State.respond s r).drawn = s.drawn ∧ (State.respond s r).tb = s.tb
    ∧ (State.respond s r).sp = s.sp ∧ (State.respond s r).mu = s.mu ∧ (State.respond s r).rc = s.rc
    ∧ (State.respond s r).cc = s.cc ∧ (State.respond s r).he = s.he ∧ (State.respond s r).bus = s.bus
    ∧ (State.respond s r).sc = s.sc := by
  exact ⟨rfl, rfl, rfl, rfl, rfl, rfl, rfl, rfl, rfl, rfl⟩

/-- It touches hl alone. -/
@[simp] theorem State.answer_keeps (s : State) (c : Byte) (r : ResponseCode) :
    (State.answer s c r).pending = s.pending ∧ (State.answer s c r).drawn = s.drawn ∧ (State.answer s c r).tb = s.tb
    ∧ (State.answer s c r).sp = s.sp ∧ (State.answer s c r).mu = s.mu ∧ (State.answer s c r).rc = s.rc
    ∧ (State.answer s c r).cc = s.cc ∧ (State.answer s c r).he = s.he ∧ (State.answer s c r).bus = s.bus
    ∧ (State.answer s c r).sc = s.sc := by
  exact ⟨rfl, rfl, rfl, rfl, rfl, rfl, rfl, rfl, rfl, rfl⟩

/-- It touches hl alone. -/
@[simp] theorem State.report_keeps (s : State) (c : Byte) (b : ResponseBody) :
    (State.report s c b).pending = s.pending ∧ (State.report s c b).drawn = s.drawn ∧ (State.report s c b).tb = s.tb
    ∧ (State.report s c b).sp = s.sp ∧ (State.report s c b).mu = s.mu ∧ (State.report s c b).rc = s.rc
    ∧ (State.report s c b).cc = s.cc ∧ (State.report s c b).he = s.he ∧ (State.report s c b).bus = s.bus
    ∧ (State.report s c b).sc = s.sc := by
  exact ⟨rfl, rfl, rfl, rfl, rfl, rfl, rfl, rfl, rfl, rfl⟩

end Sys2Proof.Machine
end

