-- ==== Sys2Proof/Laws/State.lean ====
section
/-! SUPPORT. What a named update does to the field it writes, and what a reader of a table or a list answers after it: the
equations that a proof over the state rewrites with. Laws/Frames.lean has the parts an update leaves alone. -/
namespace Sys2Proof.Machine

/-! ### The queue of commands -/

@[simp] theorem State.withPending_pending (s : State) (q : List Instr) : (s.withPending q).pending = q := rfl

theorem step_cons (c : Instr) (q : List Instr) (s : State) : step (s.withPending (c :: q)) = exec c (s.withPending q) := rfl

theorem step_of_pending (c : Instr) (q : List Instr) (s : State) (h : s.pending = c :: q) :
    step s = exec c (s.withPending q) := by
  unfold step
  rw [h]

theorem step_idle (s : State) (h : s.pending = []) : step s = .next s := by
  unfold step
  rw [h]

/-! ### The Host Link -/

@[simp] theorem State.postWithMark_hl (s : State) (k : EventKind) (h : Handset) (o : Nat) (t : Tag) (r : Reason) (m : Mark) :
    (s.postWithMark k h o t r m).hl
      = s.hl.post { kind := k, handset := h, other := o, tag := t, reason := r, mark := m, lost := 0 } := rfl

@[simp] theorem State.post_hl (s : State) (k : EventKind) (h : Handset) (o : Nat) (t : Tag) (r : Reason) :
    (s.post k h o t r).hl
      = s.hl.post { kind := k, handset := h, other := o, tag := t, reason := r, mark := s.tb.mark, lost := 0 } := rfl

@[simp] theorem State.count_hl (s : State) (k : Tally) :
    (s.count k).hl = { s.hl with tallies := s.hl.tallies.add k 1 } := rfl

@[simp] theorem State.countBy_hl (s : State) (k : Tally) (n : Nat) :
    (s.countBy k n).hl = { s.hl with tallies := s.hl.tallies.add k n } := rfl

@[simp] theorem State.respond_hl (s : State) (r : Response) :
    (s.respond r).hl = { s.hl with response := r, shifted := some { response := s.hl.response, bytes := 64 } } := rfl

@[simp] theorem Tallies.get_add (t : Tallies) (k j : Tally) (n : Nat) :
    (t.add k n).get j = if j = k then t.get j + BitVec.ofNat 32 n else t.get j := by cases k <;> cases j <;> rfl

@[simp] theorem Tallies.get_zero (k : Tally) : Tallies.zero.get k = 0 := by cases k <;> rfl

/-- An event leaves the response, the tallies and the host's last transaction alone. -/
@[simp] theorem HostLink.post_keeps (h : HostLink) (e : EventRecord) :
    (h.post e).response = h.response ∧ (h.post e).tallies = h.tallies ∧ (h.post e).shifted = h.shifted := by
  unfold HostLink.post
  split
  · exact ⟨rfl, rfl, rfl⟩
  · split <;> exact ⟨rfl, rfl, rfl⟩

/-- An event never makes the queue longer than its places, and the lost count stays in its byte. -/
theorem HostLink.post_bounds (h : HostLink) (e : EventRecord) (hl : h.events.length ≤ 32) (hb : h.lost ≤ 255) :
    (h.post e).events.length ≤ 32 ∧ (h.post e).lost ≤ 255 := by
  unfold HostLink.post
  split
  · rename_i g
    simp only [Config.eventPlaces] at g
    refine ⟨?_, hb⟩
    simp only [List.length_append, List.length_cons, List.length_nil]
    omega
  · split
    · rename_i g g'
      simp only [Bool.and_eq_true, List.any_eq_true] at g'
      obtain ⟨-, x, hx, hp⟩ := g'
      refine ⟨?_, by simp only [lostPlusOne]; omega⟩
      have hr := List.length_eraseP_of_mem (p := fun x : EventRecord => x.level == 1) hx hp
      simp only [List.length_append, hr, List.length_cons, List.length_nil]
      have := List.length_pos_of_mem hx
      omega
    · exact ⟨hl, by simp only [lostPlusOne]; omega⟩

/-! ### The slot plan -/

@[simp] theorem State.writeSlot_sp (s : State) (slot : Nat) (e : SlotEntry) : (s.writeSlot slot e).sp = s.sp.write slot e := rfl

@[simp] theorem SlotPlanner.write_keeps (p : SlotPlanner) (slot : Nat) (e : SlotEntry) :
    (p.write slot e).changes = p.changes ∧ (p.write slot e).cursor = p.cursor ∧ (p.write slot e).beaconQ = p.beaconQ
    ∧ (p.write slot e).inForce = p.inForce ∧ (p.write slot e).sent = p.sent := ⟨rfl, rfl, rfl, rfl, rfl⟩

theorem SlotPlanner.write_plan (p : SlotPlanner) (slot : Nat) (e : SlotEntry) :
    (p.write slot e).plan = p.plan.setIfInBounds slot e := rfl

theorem State.slotEntry_of_plan (s : State) (p : Vector SlotEntry 16) (h : s.sp.plan = p) (k : Nat) :
    s.slotEntry k = p[k]?.getD .free := by rw [← h]; rfl

theorem State.slotEntry_writeSlot (s : State) (slot k : Nat) (e : SlotEntry) :
    (s.writeSlot slot e).slotEntry k = if k = slot ∧ slot < 16 then e else s.slotEntry k := by
  simp only [State.slotEntry, State.writeSlot_sp, SlotPlanner.write_plan, Vector.getElem?_setIfInBounds]
  by_cases h : slot = k
  · subst h
    by_cases g : slot < 16 <;> simp [g]
  · have : ¬k = slot := fun x => h x.symm
    simp [h, this]

theorem State.slotEntry_writeSlot_self (s : State) (slot : Nat) (e : SlotEntry) (h : slot < 16) :
    (s.writeSlot slot e).slotEntry slot = e := by simp [State.slotEntry_writeSlot, h]

theorem State.slotEntry_writeSlot_other (s : State) (slot k : Nat) (e : SlotEntry) (h : k ≠ slot) :
    (s.writeSlot slot e).slotEntry k = s.slotEntry k := by simp [State.slotEntry_writeSlot, h]

/-- A slot number above 15 names no slot. -/
theorem State.slotEntry_big (s : State) (slot : Nat) (h : 16 ≤ slot) : s.slotEntry slot = .free := by
  simp [State.slotEntry, Vector.getElem?_eq_none h]

theorem State.freeSlot_zero (s : State) : s.freeSlot 0 = s := rfl

theorem State.freeSlot_sp (s : State) (slot : Nat) (h : slot ≠ 0) :
    (s.freeSlot slot).sp = { s.sp.write slot .free with changes := s.sp.changes.filter fun c => c.slot != slot } := by
  simp [State.freeSlot, h]

theorem State.slotEntry_freeSlot (s : State) (slot k : Nat) :
    (s.freeSlot slot).slotEntry k = if k = slot ∧ slot ≠ 0 then .free else s.slotEntry k := by
  by_cases h : slot = 0
  · subst h
    simp [State.freeSlot_zero]
  · have : (s.freeSlot slot).slotEntry k = (s.writeSlot slot .free).slotEntry k := by
      simp [State.slotEntry, State.freeSlot_sp s slot h, SlotPlanner.write_plan]
    rw [this, State.slotEntry_writeSlot]
    by_cases g : k = slot
    · subst g
      by_cases b : k < 16
      · simp [h, b]
      · simp [h, b, State.slotEntry_big s k (by omega)]
    · simp [g]

/-- Freeing a slot takes changes away and adds none. -/
theorem State.freeSlot_changes_subset (s : State) (slot : Nat) : (s.freeSlot slot).sp.changes ⊆ s.sp.changes := by
  by_cases h : slot = 0
  · subst h
    exact fun _ x => x
  · rw [State.freeSlot_sp s slot h]
    exact List.filter_subset_self _

theorem State.freeSlot_changes_length (s : State) (slot : Nat) :
    (s.freeSlot slot).sp.changes.length ≤ s.sp.changes.length := by
  by_cases h : slot = 0
  · subst h
    exact le_refl _
  · rw [State.freeSlot_sp s slot h]
    exact List.length_filter_le _ _

@[simp] theorem State.freeSlot_sp_keeps (s : State) (slot : Nat) :
    (s.freeSlot slot).sp.cursor = s.sp.cursor ∧ (s.freeSlot slot).sp.beaconQ = s.sp.beaconQ
    ∧ (s.freeSlot slot).sp.inForce = s.sp.inForce ∧ (s.freeSlot slot).sp.sent = s.sp.sent := by
  by_cases h : slot = 0
  · subst h
    exact ⟨rfl, rfl, rfl, rfl⟩
  · rw [State.freeSlot_sp s slot h]
    exact ⟨rfl, rfl, rfl, rfl⟩

@[simp] theorem State.restoreSlot_sp_keeps (s : State) (slot : Nat) (h : Handset) :
    (s.restoreSlot slot h).sp.changes = s.sp.changes ∧ (s.restoreSlot slot h).sp.cursor = s.sp.cursor
    ∧ (s.restoreSlot slot h).sp.beaconQ = s.sp.beaconQ ∧ (s.restoreSlot slot h).sp.inForce = s.sp.inForce
    ∧ (s.restoreSlot slot h).sp.sent = s.sp.sent := by
  unfold State.restoreSlot
  (repeat' split) <;> exact ⟨rfl, rfl, rfl, rfl, rfl⟩

@[simp] theorem State.admitChange_changes (s : State) (c : PlanChange) :
    (s.admitChange c).sp.changes = placeChange c s.sp.changes := rfl

/-- An admitted change takes one more place at most. -/
theorem placeChange_length (c : PlanChange) (l : List PlanChange) :
    (placeChange c l).length = if l.any (fun d => d.slot == c.slot && d.mark == c.mark) then l.length else l.length + 1 := by
  unfold placeChange
  split <;> simp

@[simp] theorem State.planned_markReported (s : State) (slot k : Nat) :
    (s.markReported slot).planned k
      = if k = slot then { s.planned slot with reported := if slot < 16 then true else false } else s.planned k := by
  simp only [State.planned, State.markReported, Vector.getElem?_setIfInBounds]
  by_cases h : slot = k
  · subst h
    by_cases g : slot < 16 <;> simp [g]
  · have : ¬k = slot := fun x => h x.symm
    simp [h, this]

@[simp] theorem State.markReported_sp_keeps (s : State) (slot : Nat) :
    (s.markReported slot).sp.plan = s.sp.plan ∧ (s.markReported slot).sp.changes = s.sp.changes
    ∧ (s.markReported slot).sp.cursor = s.sp.cursor ∧ (s.markReported slot).sp.beaconQ = s.sp.beaconQ
    ∧ (s.markReported slot).sp.moves = s.sp.moves ∧ (s.markReported slot).sp.sent = s.sp.sent :=
  ⟨rfl, rfl, rfl, rfl, rfl, rfl⟩

/-! ### The attachment table -/

@[simp] theorem State.setEntry_rc_keeps (s : State) (i : Nat) (e : Option Entry) :
    (s.setEntry i e).rc.finds = s.rc.finds ∧ (s.setEntry i e).rc.findNumber = s.rc.findNumber := ⟨rfl, rfl⟩

theorem State.entry?_setEntry (s : State) (i j : Nat) (e : Option Entry) :
    (s.setEntry i e).entry? j = if j = i ∧ i < 64 then e else s.entry? j := by
  simp only [State.entry?, State.setEntry, Vector.getElem?_setIfInBounds]
  by_cases h : i = j
  · subst h
    by_cases g : i < 64 <;> simp [g]
  · have : ¬j = i := fun x => h x.symm
    simp [h, this]

/-- An index that holds an entry is one of the 64. -/
theorem State.entry?_lt {s : State} {i : Nat} {e : Entry} (h : s.entry? i = some e) : i < 64 := by
  by_contra g
  simp [State.entry?, Vector.getElem?_eq_none (Nat.le_of_not_lt g)] at h

theorem State.entry?_setEntry_self (s : State) (i : Nat) (e : Option Entry) (h : i < 64) : (s.setEntry i e).entry? i = e := by
  simp [State.entry?_setEntry, h]

theorem State.entry?_setEntry_other (s : State) (i j : Nat) (e : Option Entry) (h : j ≠ i) :
    (s.setEntry i e).entry? j = s.entry? j := by simp [State.entry?_setEntry, h]

/-- Writing an entry twice is writing it the second time. -/
@[simp] theorem State.setEntry_setEntry (s : State) (i : Nat) (e f : Option Entry) :
    (s.setEntry i e).setEntry i f = s.setEntry i f := by
  have h : ∀ v : Vector (Option Entry) 64, (v.setIfInBounds i e).setIfInBounds i f = v.setIfInBounds i f := by
    intro v
    ext k hk
    simp only [Vector.getElem_setIfInBounds]
    split <;> rfl
  simp [State.setEntry, h]

theorem State.modifyEntry_some (s : State) (i : Nat) (e : Entry) (f : Entry → Entry) (h : s.entry? i = some e) :
    s.modifyEntry i f = s.setEntry i (some (f e)) := by simp [State.modifyEntry, h]

theorem State.modifyEntry_none (s : State) (i : Nat) (f : Entry → Entry) (h : s.entry? i = none) :
    s.modifyEntry i f = s := by simp [State.modifyEntry, h]

/-- Entries are read from the attachment table alone. -/
theorem State.entry?_congr {s t : State} (h : t.rc = s.rc) (i : Nat) : t.entry? i = s.entry? i := by
  simp only [State.entry?, h]

theorem State.lookup_congr {s t : State} (h : t.rc = s.rc) (x : Handset) : t.lookup x = s.lookup x := by
  simp only [State.lookup, h]

theorem State.find?_congr {s t : State} (h : t.rc = s.rc) (x : Handset) : t.find? x = s.find? x := by
  simp only [State.find?, State.lookup_congr h, State.entry?_congr h]

theorem State.freeIndex_congr {s t : State} (h : t.rc = s.rc) : t.freeIndex = s.freeIndex := by
  simp only [State.freeIndex, h]

/-- All readers of the attachment table at once. -/
theorem State.reads_congr {s t : State} (h : t.rc = s.rc) :
    t.entry? = s.entry? ∧ t.lookup = s.lookup ∧ t.find? = s.find? ∧ t.freeIndex = s.freeIndex :=
  ⟨funext (State.entry?_congr h), funext (State.lookup_congr h), funext (State.find?_congr h), State.freeIndex_congr h⟩

@[simp] theorem State.reads_postWithMark (s : State) (k : EventKind) (h : Handset) (o : Nat) (t : Tag) (r : Reason) (m : Mark) :
    (s.postWithMark k h o t r m).entry? = s.entry? ∧ (s.postWithMark k h o t r m).lookup = s.lookup ∧ (s.postWithMark k h o t r m).find? = s.find?
    ∧ (s.postWithMark k h o t r m).freeIndex = s.freeIndex :=
  State.reads_congr (by simp)

@[simp] theorem State.reads_post (s : State) (k : EventKind) (h : Handset) (o : Nat) (t : Tag) (r : Reason) :
    (s.post k h o t r).entry? = s.entry? ∧ (s.post k h o t r).lookup = s.lookup ∧ (s.post k h o t r).find? = s.find?
    ∧ (s.post k h o t r).freeIndex = s.freeIndex :=
  State.reads_congr (by simp)

@[simp] theorem State.reads_count (s : State) (k : Tally) :
    (s.count k).entry? = s.entry? ∧ (s.count k).lookup = s.lookup ∧ (s.count k).find? = s.find?
    ∧ (s.count k).freeIndex = s.freeIndex :=
  State.reads_congr (by simp)

@[simp] theorem State.reads_callLost (s : State) (e : Entry) (o : Nat) (r : Reason) :
    (s.callLost e o r).entry? = s.entry? ∧ (s.callLost e o r).lookup = s.lookup ∧ (s.callLost e o r).find? = s.find?
    ∧ (s.callLost e o r).freeIndex = s.freeIndex :=
  State.reads_congr (by simp)

@[simp] theorem State.reads_writeSlot (s : State) (slot : Nat) (e : SlotEntry) :
    (s.writeSlot slot e).entry? = s.entry? ∧ (s.writeSlot slot e).lookup = s.lookup ∧ (s.writeSlot slot e).find? = s.find?
    ∧ (s.writeSlot slot e).freeIndex = s.freeIndex :=
  State.reads_congr (by simp)

@[simp] theorem State.reads_freeSlot (s : State) (slot : Nat) :
    (s.freeSlot slot).entry? = s.entry? ∧ (s.freeSlot slot).lookup = s.lookup ∧ (s.freeSlot slot).find? = s.find?
    ∧ (s.freeSlot slot).freeIndex = s.freeIndex :=
  State.reads_congr (by simp)

@[simp] theorem State.reads_restoreSlot (s : State) (slot : Nat) (h : Handset) :
    (s.restoreSlot slot h).entry? = s.entry? ∧ (s.restoreSlot slot h).lookup = s.lookup ∧ (s.restoreSlot slot h).find? = s.find?
    ∧ (s.restoreSlot slot h).freeIndex = s.freeIndex :=
  State.reads_congr (by simp)

@[simp] theorem State.reads_freeBearer (s : State) (e : Entry) :
    (s.freeBearer e).entry? = s.entry? ∧ (s.freeBearer e).lookup = s.lookup ∧ (s.freeBearer e).find? = s.find?
    ∧ (s.freeBearer e).freeIndex = s.freeIndex :=
  State.reads_congr (by simp)

@[simp] theorem State.reads_admitChange (s : State) (c : PlanChange) :
    (s.admitChange c).entry? = s.entry? ∧ (s.admitChange c).lookup = s.lookup ∧ (s.admitChange c).find? = s.find?
    ∧ (s.admitChange c).freeIndex = s.freeIndex :=
  State.reads_congr (by simp)

@[simp] theorem State.reads_setMove (s : State) (m : Move) :
    (s.setMove m).entry? = s.entry? ∧ (s.setMove m).lookup = s.lookup ∧ (s.setMove m).find? = s.find?
    ∧ (s.setMove m).freeIndex = s.freeIndex :=
  State.reads_congr (by simp)

@[simp] theorem State.reads_withdrawMove (s : State) (slot : Nat) :
    (s.withdrawMove slot).entry? = s.entry? ∧ (s.withdrawMove slot).lookup = s.lookup ∧ (s.withdrawMove slot).find? = s.find?
    ∧ (s.withdrawMove slot).freeIndex = s.freeIndex :=
  State.reads_congr (by simp)

@[simp] theorem State.reads_withdrawMoveOf (s : State) (i : Nat) :
    (s.withdrawMoveOf i).entry? = s.entry? ∧ (s.withdrawMoveOf i).lookup = s.lookup ∧ (s.withdrawMoveOf i).find? = s.find?
    ∧ (s.withdrawMoveOf i).freeIndex = s.freeIndex :=
  State.reads_congr (by simp)

@[simp] theorem State.reads_offerBeacon (s : State) (m : Downlink) :
    (s.offerBeacon m).entry? = s.entry? ∧ (s.offerBeacon m).lookup = s.lookup ∧ (s.offerBeacon m).find? = s.find?
    ∧ (s.offerBeacon m).freeIndex = s.freeIndex :=
  State.reads_congr (by simp)

@[simp] theorem State.reads_grant (s : State) (h : Handset) :
    (s.grant h).entry? = s.entry? ∧ (s.grant h).lookup = s.lookup ∧ (s.grant h).find? = s.find?
    ∧ (s.grant h).freeIndex = s.freeIndex :=
  State.reads_congr (by simp)

@[simp] theorem State.reads_denyAttach (s : State) (h : Handset) (r : DenyReason) :
    (s.denyAttach h r).entry? = s.entry? ∧ (s.denyAttach h r).lookup = s.lookup ∧ (s.denyAttach h r).find? = s.find?
    ∧ (s.denyAttach h r).freeIndex = s.freeIndex :=
  State.reads_congr (by simp)

@[simp] theorem State.reads_denyCall (s : State) (h : Handset) (r : DenyReason) :
    (s.denyCall h r).entry? = s.entry? ∧ (s.denyCall h r).lookup = s.lookup ∧ (s.denyCall h r).find? = s.find?
    ∧ (s.denyCall h r).freeIndex = s.freeIndex :=
  State.reads_congr (by simp)

@[simp] theorem State.reads_removePage (s : State) (h : Handset) :
    (s.removePage h).entry? = s.entry? ∧ (s.removePage h).lookup = s.lookup ∧ (s.removePage h).find? = s.find?
    ∧ (s.removePage h).freeIndex = s.freeIndex :=
  State.reads_congr (by simp)

@[simp] theorem State.reads_dropSetup (s : State) (i : Nat) :
    (s.dropSetup i).entry? = s.entry? ∧ (s.dropSetup i).lookup = s.lookup ∧ (s.dropSetup i).find? = s.find?
    ∧ (s.dropSetup i).freeIndex = s.freeIndex :=
  State.reads_congr (by simp)

@[simp] theorem State.reads_setOut (s : State) (r : Nat) (o : Option OutRecord) :
    (s.setOut r o).entry? = s.entry? ∧ (s.setOut r o).lookup = s.lookup ∧ (s.setOut r o).find? = s.find?
    ∧ (s.setOut r o).freeIndex = s.freeIndex :=
  State.reads_congr (by simp)

@[simp] theorem State.reads_setIn (s : State) (r : Nat) (o : Option InRecord) :
    (s.setIn r o).entry? = s.entry? ∧ (s.setIn r o).lookup = s.lookup ∧ (s.setIn r o).find? = s.find?
    ∧ (s.setIn r o).freeIndex = s.freeIndex :=
  State.reads_congr (by simp)

@[simp] theorem State.reads_dropOut (s : State) (i : Nat) :
    (s.dropOut i).entry? = s.entry? ∧ (s.dropOut i).lookup = s.lookup ∧ (s.dropOut i).find? = s.find?
    ∧ (s.dropOut i).freeIndex = s.freeIndex :=
  State.reads_congr (by simp)

@[simp] theorem State.reads_dropIn (s : State) (i : Nat) :
    (s.dropIn i).entry? = s.entry? ∧ (s.dropIn i).lookup = s.lookup ∧ (s.dropIn i).find? = s.find?
    ∧ (s.dropIn i).freeIndex = s.freeIndex :=
  State.reads_congr (by simp)

@[simp] theorem State.reads_releaseCall (s : State) (i : Nat) (e : Entry) :
    (s.releaseCall i e).entry? = s.entry? ∧ (s.releaseCall i e).lookup = s.lookup ∧ (s.releaseCall i e).find? = s.find?
    ∧ (s.releaseCall i e).freeIndex = s.freeIndex :=
  State.reads_congr (by simp)

@[simp] theorem State.reads_offer (s : State) (n : Notice) :
    (s.offer n).entry? = s.entry? ∧ (s.offer n).lookup = s.lookup ∧ (s.offer n).find? = s.find?
    ∧ (s.offer n).freeIndex = s.freeIndex :=
  State.reads_congr (by simp)

@[simp] theorem State.reads_markReported (s : State) (slot : Nat) :
    (s.markReported slot).entry? = s.entry? ∧ (s.markReported slot).lookup = s.lookup ∧ (s.markReported slot).find? = s.find?
    ∧ (s.markReported slot).freeIndex = s.freeIndex :=
  State.reads_congr (by simp)

@[simp] theorem State.reads_moveCursor (s : State) (c : Cell) :
    (s.moveCursor c).entry? = s.entry? ∧ (s.moveCursor c).lookup = s.lookup ∧ (s.moveCursor c).find? = s.find?
    ∧ (s.moveCursor c).freeIndex = s.freeIndex :=
  State.reads_congr (by simp)

@[simp] theorem State.reads_removeOverheard (s : State) (h : Handset) :
    (s.removeOverheard h).entry? = s.entry? ∧ (s.removeOverheard h).lookup = s.lookup ∧ (s.removeOverheard h).find? = s.find?
    ∧ (s.removeOverheard h).freeIndex = s.freeIndex :=
  State.reads_congr (by simp)

@[simp] theorem State.reads_endListensFor (s : State) (h : Handset) :
    (s.endListensFor h).entry? = s.entry? ∧ (s.endListensFor h).lookup = s.lookup ∧ (s.endListensFor h).find? = s.find?
    ∧ (s.endListensFor h).freeIndex = s.freeIndex :=
  State.reads_congr (by simp)

@[simp] theorem State.reads_becomesHeld (s : State) (h : Handset) :
    (s.becomesHeld h).entry? = s.entry? ∧ (s.becomesHeld h).lookup = s.lookup ∧ (s.becomesHeld h).find? = s.find?
    ∧ (s.becomesHeld h).freeIndex = s.freeIndex :=
  State.reads_congr (by simp)

@[simp] theorem State.reads_pageFails (s : State) (h : Handset) (r : Reason) :
    (s.pageFails h r).entry? = s.entry? ∧ (s.pageFails h r).lookup = s.lookup ∧ (s.pageFails h r).find? = s.find?
    ∧ (s.pageFails h r).freeIndex = s.freeIndex :=
  State.reads_congr (by simp)

@[simp] theorem State.reads_addSetup (s : State) (i : Nat) :
    (s.addSetup i).entry? = s.entry? ∧ (s.addSetup i).lookup = s.lookup ∧ (s.addSetup i).find? = s.find?
    ∧ (s.addSetup i).freeIndex = s.freeIndex :=
  State.reads_congr (by simp)

/-- A handset whose entry is found is held at that index, and no lower index holds it. -/
theorem State.find?_some {s : State} {h : Handset} {i : Nat} {e : Entry} (f : s.find? h = some (i, e)) :
    s.lookup h = some i ∧ s.entry? i = some e ∧ e.handset = h := by
  unfold State.find? at f
  split at f
  · rename_i k hk
    rw [Option.map_eq_some_iff] at f
    obtain ⟨a, ha, hp⟩ := f
    cases hp
    refine ⟨hk, ha, ?_⟩
    obtain ⟨hlt, hp, -⟩ := List.findIdx?_eq_some_iff_getElem.mp hk
    have : i < 64 := State.entry?_lt ha
    simp only [State.entry?, Vector.getElem?_eq_getElem this, Option.join_some] at ha
    simp only [Vector.getElem_toList] at hp
    rw [ha] at hp
    simpa [holdsHandset] using hp
  · simp at f

/-- A lookup that answers finds an entry of the handset. -/
theorem State.lookup_some {s : State} {h : Handset} {i : Nat} (l : s.lookup h = some i) :
    ∃ e, s.entry? i = some e ∧ e.handset = h := by
  obtain ⟨hlt, hp, -⟩ := List.findIdx?_eq_some_iff_getElem.mp l
  have hi : i < 64 := by simpa using hlt
  simp only [Vector.getElem_toList] at hp
  cases he : s.rc.table[i] with
  | none => rw [he] at hp; simp [holdsHandset] at hp
  | some e =>
    rw [he] at hp
    exact ⟨e, by simp [State.entry?, Vector.getElem?_eq_getElem hi, he], by simpa [holdsHandset] using hp⟩

theorem State.find?_of_lookup {s : State} {h : Handset} {i : Nat} {e : Entry} (l : s.lookup h = some i)
    (he : s.entry? i = some e) : s.find? h = some (i, e) := by simp [State.find?, l, he]

/-- A handset is held exactly where its entry is found. -/
theorem State.find?_none_iff (s : State) (h : Handset) : s.find? h = none ↔ s.lookup h = none := by
  constructor
  · intro f
    cases l : s.lookup h with
    | none => rfl
    | some i =>
      obtain ⟨e, he, -⟩ := State.lookup_some l
      rw [State.find?_of_lookup l he] at f
      simp at f
  · intro l
    simp [State.find?, l]

theorem State.isHeld_iff (s : State) (h : Handset) : s.isHeld h = true ↔ ∃ i e, s.entry? i = some e ∧ e.handset = h := by
  constructor
  · intro g
    obtain ⟨i, l⟩ := Option.isSome_iff_exists.mp g
    obtain ⟨e, he⟩ := State.lookup_some l
    exact ⟨i, e, he⟩
  · rintro ⟨i, e, he, hh⟩
    have hi := State.entry?_lt he
    have : ¬s.lookup h = none := by
      intro l
      have := List.findIdx?_eq_none_iff.mp l (some e) (by
        have : s.rc.table[i] = some e := by
          simpa [State.entry?, Vector.getElem?_eq_getElem hi] using he
        rw [← this]
        simp)
      simp [holdsHandset, hh] at this
    unfold State.isHeld
    cases g : s.lookup h
    · exact absurd g this
    · rfl

/-- The lowest free index is free, and is one of the 64. -/
theorem State.freeIndex_some {s : State} {i : Nat} (h : s.freeIndex = some i) : i < 64 ∧ s.entry? i = none := by
  obtain ⟨hlt, hp, -⟩ := List.findIdx?_eq_some_iff_getElem.mp h
  have hi : i < 64 := by simpa using hlt
  refine ⟨hi, ?_⟩
  simp only [Vector.getElem_toList] at hp
  cases he : s.rc.table[i] with
  | none => simp [State.entry?, Vector.getElem?_eq_getElem hi, he]
  | some e => rw [he] at hp; simp at hp

/-! ### Records -/

@[simp] theorem State.setFind_rc_keeps (s : State) (r : Nat) (f : Option FindRecord) :
    (s.setFind r f).rc.table = s.rc.table ∧ (s.setFind r f).rc.findNumber = s.rc.findNumber := ⟨rfl, rfl⟩

@[simp] theorem State.setOut_he_keeps (s : State) (r : Nat) (o : Option OutRecord) :
    (s.setOut r o).he.inbound = s.he.inbound ∧ (s.setOut r o).he.seekNumber = s.he.seekNumber := ⟨rfl, rfl⟩

@[simp] theorem State.setIn_he_keeps (s : State) (r : Nat) (o : Option InRecord) :
    (s.setIn r o).he.outbound = s.he.outbound ∧ (s.setIn r o).he.seekNumber = s.he.seekNumber := ⟨rfl, rfl⟩

theorem State.outRecord?_setOut (s : State) (r k : Nat) (o : Option OutRecord) :
    (s.setOut r o).outRecord? k = if k = r ∧ r < 4 then o else s.outRecord? k := by
  simp only [State.outRecord?, State.setOut, Vector.getElem?_setIfInBounds]
  by_cases h : r = k
  · subst h
    by_cases g : r < 4 <;> simp [g]
  · have : ¬k = r := fun x => h x.symm
    simp [h, this]

theorem State.inRecord?_setIn (s : State) (r k : Nat) (o : Option InRecord) :
    (s.setIn r o).inRecord? k = if k = r ∧ r < 4 then o else s.inRecord? k := by
  simp only [State.inRecord?, State.setIn, Vector.getElem?_setIfInBounds]
  by_cases h : r = k
  · subst h
    by_cases g : r < 4 <;> simp [g]
  · have : ¬k = r := fun x => h x.symm
    simp [h, this]

theorem State.findRecord?_setFind (s : State) (r k : Nat) (f : Option FindRecord) :
    (s.setFind r f).findRecord? k = if k = r ∧ r < 4 then f else s.findRecord? k := by
  simp only [State.findRecord?, State.setFind, Vector.getElem?_setIfInBounds]
  by_cases h : r = k
  · subst h
    by_cases g : r < 4 <;> simp [g]
  · have : ¬k = r := fun x => h x.symm
    simp [h, this]

theorem State.outRecord?_lt {s : State} {r : Nat} {o : OutRecord} (h : s.outRecord? r = some o) : r < 4 := by
  by_contra g
  simp [State.outRecord?, Vector.getElem?_eq_none (Nat.le_of_not_lt g)] at h

theorem State.inRecord?_lt {s : State} {r : Nat} {o : InRecord} (h : s.inRecord? r = some o) : r < 4 := by
  by_contra g
  simp [State.inRecord?, Vector.getElem?_eq_none (Nat.le_of_not_lt g)] at h

theorem State.findRecord?_lt {s : State} {r : Nat} {f : FindRecord} (h : s.findRecord? r = some f) : r < 4 := by
  by_contra g
  simp [State.findRecord?, Vector.getElem?_eq_none (Nat.le_of_not_lt g)] at h

/-- The outbound record found for an entry is one of that entry. -/
theorem State.outOf_some {s : State} {i r : Nat} (h : s.outOf i = some r) : ∃ o, s.outRecord? r = some o ∧ o.entry = i := by
  obtain ⟨hlt, hp, -⟩ := List.findIdx?_eq_some_iff_getElem.mp h
  have hr : r < 4 := by simpa using hlt
  simp only [Vector.getElem_toList] at hp
  cases ho : s.he.outbound[r] with
  | none => rw [ho] at hp; simp [outOwnedBy] at hp
  | some o =>
    rw [ho] at hp
    exact ⟨o, by simp [State.outRecord?, Vector.getElem?_eq_getElem hr, ho], by simpa [outOwnedBy] using hp⟩

/-- The inbound record found for an entry is one of that entry. -/
theorem State.inOf_some {s : State} {i r : Nat} (h : s.inOf i = some r) : ∃ o, s.inRecord? r = some o ∧ o.entry = i := by
  obtain ⟨hlt, hp, -⟩ := List.findIdx?_eq_some_iff_getElem.mp h
  have hr : r < 4 := by simpa using hlt
  simp only [Vector.getElem_toList] at hp
  cases ho : s.he.inbound[r] with
  | none => rw [ho] at hp; simp [inOwnedBy] at hp
  | some o =>
    rw [ho] at hp
    exact ⟨o, by simp [State.inRecord?, Vector.getElem?_eq_getElem hr, ho], by simpa [inOwnedBy] using hp⟩

/-! ### The Measurement Unit and the Call Controller -/

/-- A handset's overheard entry is that handset's, and stands in the list. -/
theorem State.overheard?_some {s : State} {h : Handset} {o : Overheard} (f : s.overheard? h = some o) :
    o ∈ s.mu.overheard ∧ o.handset = h := by
  have m := List.mem_of_find?_eq_some f
  have p := List.find?_some f
  exact ⟨m, by simpa using p⟩

theorem State.page?_some {s : State} {h : Handset} {p : PageRecord} (f : s.page? h = some p) :
    p ∈ s.cc.pages ∧ p.handset = h := by
  have m := List.mem_of_find?_eq_some f
  have q := List.find?_some f
  exact ⟨m, by simpa using q⟩

@[simp] theorem CallControl.removePage_keeps (c : CallControl) (h : Handset) :
    (c.removePage h).allocCursor = c.allocCursor ∧ (c.removePage h).tagSeq = c.tagSeq ∧ (c.removePage h).setups = c.setups := by
  unfold CallControl.removePage
  split <;> exact ⟨rfl, rfl, rfl⟩

theorem CallControl.removePage_length (c : CallControl) (h : Handset) : (c.removePage h).pages.length ≤ c.pages.length := by
  unfold CallControl.removePage
  split
  · exact le_refl _
  · exact List.length_eraseIdx_le _ _

@[simp] theorem State.removePage_cc (s : State) (h : Handset) : (s.removePage h).cc = s.cc.removePage h := rfl

theorem State.freeEntry_some (s : State) (i : Nat) (e : Entry) (h : s.entry? i = some e) :
    s.freeEntry i = (s.removePage e.handset).setEntry i none := by simp [State.freeEntry, h]

@[simp] theorem State.dropSetup_cc_keeps (s : State) (i : Nat) :
    (s.dropSetup i).cc.allocCursor = s.cc.allocCursor ∧ (s.dropSetup i).cc.tagSeq = s.cc.tagSeq
    ∧ (s.dropSetup i).cc.pages = s.cc.pages ∧ (s.dropSetup i).cc.rotation = s.cc.rotation := ⟨rfl, rfl, rfl, rfl⟩

/-! ### Drain -/

/-- The drain condition in words: no entry is in one of the four states. -/
theorem State.drained_iff (s : State) : s.drained = true ↔ ∀ i e, s.entry? i = some e → e.engaged = false := by
  unfold State.drained
  rw [List.all_eq_true]
  constructor
  · intro h i e he
    have hi := State.entry?_lt he
    have : s.rc.table[i] = some e := by simpa [State.entry?, Vector.getElem?_eq_getElem hi] using he
    have := h (some e) (by rw [← this]; simp)
    simpa using this
  · intro h o ho
    cases o with
    | none => rfl
    | some e =>
      obtain ⟨i, hi, hie⟩ := List.getElem_of_mem ho
      have hi' : i < 64 := by simpa using hi
      have : s.entry? i = some e := by
        simp only [Vector.getElem_toList] at hie
        simp [State.entry?, Vector.getElem?_eq_getElem hi', hie]
      simp [h i e this]

theorem State.drainTest_not_draining (s : State) (h : s.sc.station ≠ .draining) : s.drainTest = s := by
  simp [State.drainTest, h]

theorem State.drainTest_engaged (s : State) (i : Nat) (e : Entry) (h : s.entry? i = some e) (g : e.engaged = true) :
    s.drainTest = s := by
  have : s.drained = false := by
    apply Bool.eq_false_iff.mpr
    rw [Ne, State.drained_iff]
    intro k
    rw [k i e h] at g
    exact absurd g (by simp)
  simp [State.drainTest, this]

theorem State.drainTest_drained (s : State) (h : s.sc.station = .draining) (g : s.drained = true) :
    s.drainTest = s.completeDrain .complete := by simp [State.drainTest, h, g]

end Sys2Proof.Machine
end

