-- ==== Sys2Proof/Laws/Operations.lean ====
section
/-! SUPPORT. What the shared operations can do, said once each: admission to the two queues, plan changes, selection, owed
claims, the discard of the bus queues, and the acceptance of burst reports. -/
namespace Sys2Proof.Machine

/-! ### Small facts -/

theorem badHandset_zero : badHandset 0 = true := rfl

theorem badHandset_of_ne {h : Handset} (a : h ≠ 0) : badHandset h = false := beq_false_of_ne a

theorem State.addressedHere_iff (s : State) (n : Notice) :
    s.addressedHere n = true ↔ n.dest = 0 ∨ n.dest = s.sc.config.stationNumber := by
  simp [State.addressedHere, State.stationNumber]

theorem State.serving_iff (s : State) : s.serving = true ↔ s.sc.station = .active ∨ s.sc.station = .draining := by
  simp [State.serving]

theorem Entry.isIdle_eq (e : Entry) : e.isIdle = !e.engaged := by
  cases e with
  | mk a b p => cases p <;> rfl

theorem allFree_replicate {α : Type} (n : Nat) : allFree (Vector.replicate n (none : Option α)) := by
  intro k
  by_cases h : k < n <;> simp [h]

theorem clamp_range (lo hi v : Nat) (h : lo ≤ hi) : lo ≤ clamp lo hi v ∧ clamp lo hi v ≤ hi := by
  unfold clamp
  omega

theorem configByte_le (w : ConfigWord) (k : Nat) : configByte w k ≤ 255 := by
  unfold configByte
  have := (w.extractLsb' (8 * (34 - k)) 8).isLt
  omega

/-! ### Places of a table -/

/-- The first place of a table that a test picks. -/
theorem firstPlace_some {α : Type} {n : Nat} (v : Vector (Option α) n) (p : Option α → Bool) (k : Nat) :
    v.toList.findIdx? p = some k ↔ k < n ∧ p ((v[k]?).join) = true ∧ ∀ j, j < k → p ((v[j]?).join) = false := by
  rw [List.findIdx?_eq_some_iff_getElem]
  constructor
  · rintro ⟨hk, h1, h2⟩
    have hk' : k < n := by simpa using hk
    refine ⟨hk', ?_, ?_⟩
    · simpa [hk'] using h1
    · intro j hj
      have := h2 j hj
      have hjn : j < n := by omega
      simpa [hjn] using this
  · rintro ⟨hk, h1, h2⟩
    refine ⟨by simpa using hk, by simpa [hk] using h1, ?_⟩
    intro j hj
    have := h2 j hj
    have hjn : j < n := by omega
    simpa [hjn] using this

/-- A table in which a test picks no place. -/
theorem firstPlace_none {α : Type} {n : Nat} (v : Vector (Option α) n) (p : Option α → Bool) :
    v.toList.findIdx? p = none ↔ ∀ k, k < n → p ((v[k]?).join) = false := by
  rw [List.findIdx?_eq_none_iff]
  constructor
  · intro h k hk
    have := h (v.toList[k]'(by simpa using hk)) (List.getElem_mem _)
    simpa [hk] using this
  · intro h x hx
    obtain ⟨k, hk, rfl⟩ := List.getElem_of_mem hx
    have hk' : k < n := by simpa using hk
    have := h k hk'
    simpa [hk'] using this

/-! ### Queues -/

/-- An offer to the beacon queue appends one message or changes nothing. -/
theorem State.offerBeacon_cases (s : State) (m : Downlink) :
    (s.sp.beaconQ.length < 8 ∧ s.offerBeacon m = { s with sp := { s.sp with beaconQ := s.sp.beaconQ ++ [m] } })
    ∨ (8 ≤ s.sp.beaconQ.length ∧ s.offerBeacon m = s) := by
  by_cases h : s.sp.beaconQ.length < Config.beaconPlaces
  · exact Or.inl ⟨h, by simp [State.offerBeacon, State.beaconAdmits, h]⟩
  · exact Or.inr ⟨Nat.le_of_not_lt h, by simp [State.offerBeacon, State.beaconAdmits, h]⟩

/-- An offered notice is refused and changes at most a tally, takes a waiting notice's place, or goes to the back of a queue
that has room. -/
theorem State.offer_cases (s : State) (n : Notice) :
    (s.admits n = false ∧ (s.offer n = s ∨ s.offer n = s.count .enquiriesDropped))
    ∨ (s.admits n = true ∧ ∃ k, s.coalescePlace? n = some k ∧ s.offer n = { s with bus := s.bus.coalesce k n })
    ∨ (s.admits n = true ∧ s.bus.queue.length < 16 ∧ s.offer n = { s with bus := s.bus.append n }) := by
  cases h : s.admission n with
  | refused r =>
    refine Or.inl ⟨by simp [State.admits, h], ?_⟩
    cases r <;> simp only [State.offer, h]
    · exact Or.inl trivial
    · split
      · exact Or.inr rfl
      · exact Or.inl rfl
    · split
      · exact Or.inr rfl
      · exact Or.inl rfl
  | coalesced k =>
    refine Or.inr (Or.inl ⟨by simp [State.admits, h], k, ?_, by simp [State.offer, h]⟩)
    unfold State.admission at h
    split at h
    · simp at h
    · split at h
      · simp at h
      · split at h
        · rename_i k' hk
          cases h
          exact hk
        · unfold State.plainAdmission at h
          split at h
          · simp at h
          · split at h <;> simp at h
  | appended =>
    refine Or.inr (Or.inr ⟨by simp [State.admits, h], ?_, by simp [State.offer, h]⟩)
    unfold State.admission at h
    split at h
    · simp at h
    · split at h
      · simp at h
      · split at h
        · simp at h
        · unfold State.plainAdmission State.occupancy at h
          split at h
          · rename_i g
            simp only [Bool.and_eq_true, decide_eq_true_eq] at g
            exact g.2
          · split at h
            · rename_i g
              simp only [Bool.and_eq_true, decide_eq_true_eq, Config.queueShared] at g
              omega
            · simp at h

/-- R112, R126, log 9: what a discard of the transmit queue leaves, by the state of the transmitter. -/
theorem Bus.discardQueue_cases (b : Bus) :
    (b.tx = .waiting → b.discardQueue = { b with queue := [], mode := .opened })
    ∧ (∀ w, b.tx = .contending w → b.discardQueue = { b with queue := [], mode := .opened, tx := .waiting })
    ∧ ∀ w, b.tx = .sending w → b.discardQueue = { b with queue := b.queue.filter fun q => q.inTransmission, mode := .opened } := by
  refine ⟨?_, ?_, ?_⟩ <;> intros <;> simp_all [Bus.discardQueue]

/-- A discard leaves only a notice in transmission. -/
theorem Bus.clear_queue (b : Bus) : ∀ q ∈ b.clear.queue, q.inTransmission = true := by
  unfold Bus.clear Bus.discardQueue
  cases b.tx <;> simp

theorem Bus.clear_rest (b : Bus) : b.clear.rx = [] ∧ b.clear.mode = .opened ∧ b.clear.yieldCount = 0 := by
  unfold Bus.clear Bus.discardQueue
  cases b.tx <;> simp

theorem Bus.clear_length (b : Bus) : b.clear.queue.length ≤ b.queue.length := by
  unfold Bus.clear Bus.discardQueue
  cases b.tx
  · exact Nat.zero_le _
  · exact Nat.zero_le _
  · exact List.length_filter_le _ _

/-- Re-admission passes over the table indices that owe no claim. -/
theorem readmitFrom_skip (before rest : List Nat) (s : State)
    (h : ∀ i ∈ before, ∀ e, s.entry? i = some e → e.claimOwed = false) : readmitFrom (before ++ rest) s = readmitFrom rest s := by
  induction before with
  | nil => rfl
  | cons i before ih =>
    have g := ih fun j hj => h j (List.mem_cons_of_mem i hj)
    rw [List.cons_append, readmitFrom.eq_def]
    cases he : s.entry? i with
    | none => simpa [he] using g
    | some e => simpa [he, h i List.mem_cons_self e he] using g

/-- With no claim owed, re-admission changes nothing. -/
theorem readmitFrom_none (l : List Nat) (s : State) (h : ∀ i e, s.entry? i = some e → e.claimOwed = false) :
    readmitFrom l s = s := by
  induction l with
  | nil => rfl
  | cons i l ih =>
    unfold readmitFrom
    split
    · rename_i e he
      simp [h i e he, ih]
    · exact ih

/-- A CLAIM offered for an entry changes that entry's claim-owed flag alone. -/
theorem State.entry?_offerClaim (s : State) (i j : Nat) :
    (s.offerClaim i).entry? j
      = if j = i then (s.entry? i).map fun e => { e with claimOwed := !s.admits (s.claimOf e) } else s.entry? j := by
  unfold State.offerClaim
  cases h : s.entry? i with
  | none =>
    by_cases g : j = i
    · simp [g, h]
    · simp [g]
  | some e =>
    dsimp only
    rw [State.modifyEntry_some _ _ e _ (by simp [h]), State.entry?_setEntry]
    by_cases g : j = i <;> simp [g, State.entry?_lt h]

/-! ### The slot plan -/

theorem SlotPlanner.applyChanges_cons (p : SlotPlanner) (c : PlanChange) (l : List PlanChange) :
    p.applyChanges (c :: l) = (p.write c.slot c.entry).applyChanges l := rfl

/-- Due changes write their own slots alone. -/
theorem SlotPlanner.applyChanges_other (l : List PlanChange) (p : SlotPlanner) (k : Nat) (h : ∀ c ∈ l, c.slot ≠ k) :
    (p.applyChanges l).plan[k]? = p.plan[k]? := by
  induction l generalizing p with
  | nil => rfl
  | cons c l ih =>
    rw [SlotPlanner.applyChanges_cons, ih _ fun d hd => h d (List.mem_cons_of_mem _ hd)]
    have := h c List.mem_cons_self
    simp [SlotPlanner.write_plan, this]

/-- Due changes change the slot plan and the standing MOVEs alone. -/
theorem SlotPlanner.applyChanges_rest (l : List PlanChange) (p : SlotPlanner) :
    p.applyChanges l = { p with plan := (p.applyChanges l).plan, moves := (p.applyChanges l).moves } := by
  induction l generalizing p with
  | nil => rfl
  | cons c l ih =>
    rw [SlotPlanner.applyChanges_cons]
    conv_lhs => rw [ih]
    rfl

/-- R33: due changes end the standing MOVEs of their slots, but for those whose handset the slot is BEARER for. -/
theorem SlotPlanner.mem_moves_applyChanges (l : List PlanChange) (p : SlotPlanner) (m : Move) :
    m ∈ (p.applyChanges l).moves ↔ m ∈ p.moves ∧ ∀ c ∈ l, c.slot = m.slot → ∃ k, c.entry = .bearer k m.handset := by
  induction l generalizing p with
  | nil => simp [SlotPlanner.applyChanges]
  | cons c l ih =>
    rw [SlotPlanner.applyChanges_cons, ih]
    simp only [SlotPlanner.write, List.mem_filter, List.mem_cons, forall_eq_or_imp]
    have : (m.slot != c.slot || c.entry.isBearerFor m.handset) = true
        ↔ (c.slot = m.slot → ∃ k, c.entry = .bearer k m.handset) := by
      by_cases g : m.slot = c.slot
      · simp only [g, bne_self_eq_false, Bool.false_or, true_implies]
        cases c.entry <;> simp [SlotEntry.isBearerFor]
      · simp [g, Ne.symm g]
    rw [this]
    tauto

/-! ### The page list -/

/-- Where the page record of a handset stands. -/
theorem findIdx?_page (before after : List PageRecord) (p : PageRecord) (h : ∀ q ∈ before, q.handset ≠ p.handset) :
    (before ++ p :: after).findIdx? (fun x => x.handset == p.handset) = some before.length := by
  rw [List.findIdx?_append, List.findIdx?_eq_none_iff.mpr (by simpa using h)]
  simp [List.findIdx?_cons]

/-! ### Selection -/

theorem State.allocatable_iff (s : State) (c : Cell) : s.allocatable c = true ↔
    s.sc.config.scanFirstSlot ≤ c.slot ∧ c.slot ≤ s.sc.config.scanLastSlot
    ∧ s.sc.config.scanFirstCarrier ≤ c.carrier ∧ c.carrier ≤ s.sc.config.scanLastCarrier
    ∧ s.slotEntry c.slot = .free ∧ s.slotPending c.slot = false ∧ s.interference c ≤ s.sc.config.cleanLimit := by
  simp [State.allocatable, and_assoc]

theorem mem_windowOrder (k : ConfigRecord) (c : Cell) : c ∈ windowOrder k ↔
    k.scanFirstSlot ≤ c.slot ∧ c.slot ≤ k.scanLastSlot ∧ k.scanFirstCarrier ≤ c.carrier
    ∧ c.carrier ≤ k.scanLastCarrier := by
  unfold windowOrder numbersFrom
  simp only [List.mem_flatMap, List.mem_map, List.mem_range]
  constructor
  · rintro ⟨a, ⟨a', h, rfl⟩, b, ⟨b', h', rfl⟩, rfl⟩
    dsimp only
    omega
  · intro h
    exact ⟨c.slot, ⟨c.slot - k.scanFirstSlot, by omega, by omega⟩, c.carrier,
      ⟨c.carrier - k.scanFirstCarrier, by omega, by omega⟩, rfl⟩

/-- The search order goes round the whole window. -/
theorem State.mem_searchOrder (s : State) (c : Cell) : c ∈ s.searchOrder ↔ c ∈ windowOrder s.sc.config := by
  unfold State.searchOrder
  cases h : c.after s.cc.allocCursor <;> simp [h]

/-- The quietest cell of a list is the first one with the lowest value. -/
theorem quietest_spec (v : Cell → Nat) (l : List Cell) :
    (quietest v l = none ↔ l = [])
    ∧ ∀ c, quietest v l = some c →
      (∀ d ∈ l, v c ≤ v d) ∧ ∃ before rest, l = before ++ c :: rest ∧ ∀ d ∈ before, v c < v d := by
  induction l with
  | nil => simp [quietest]
  | cons x l ih =>
    obtain ⟨ih1, ih2⟩ := ih
    unfold quietest
    cases h : quietest v l with
    | none =>
      obtain rfl := ih1.mp h
      simp only [reduceCtorEq, Option.some.injEq, List.cons_ne_nil, true_and]
      rintro c rfl
      exact ⟨by simp, [], [], rfl, by simp⟩
    | some d =>
      obtain ⟨g1, b, r, g2, g3⟩ := ih2 d h
      dsimp only
      split
      · rename_i hlt
        refine ⟨by simp, ?_⟩
        rintro c ⟨⟩
        refine ⟨?_, x :: b, r, by simp [g2], ?_⟩
        · intro y hy
          rcases List.mem_cons.mp hy with rfl | hy
          · omega
          · exact g1 y hy
        · intro y hy
          rcases List.mem_cons.mp hy with rfl | hy
          · omega
          · exact g3 y hy
      · rename_i hlt
        refine ⟨by simp, ?_⟩
        rintro c ⟨⟩
        refine ⟨?_, [], l, rfl, by simp⟩
        intro y hy
        rcases List.mem_cons.mp hy with rfl | hy
        · omega
        · exact (Nat.le_of_not_lt hlt).trans (g1 y hy)

/-- A selection whose commit is accepted at once. -/
theorem selectCommit_some (s : State) (h : Handset) (n : Nat) (c : Cell) (h1 : s.selectCell = some c)
    (h2 : (s.moveCursor c).commitRefusal? c.slot = none) :
    selectCommit h (n + 1) s = (some c, (s.moveCursor c).writeSlot c.slot (.bearer c.carrier h)) := by
  simp [selectCommit, h1, h2]

theorem selectCommit_none (s : State) (h : Handset) (n : Nat) (h1 : s.selectCell = none) :
    selectCommit h (n + 1) s = (none, s) := by simp [selectCommit, h1]

/-! ### Candidates -/

theorem mem_placeInOrder (c x : Candidate) (l : List Candidate) : x ∈ placeInOrder c l ↔ x = c ∨ x ∈ l := by
  induction l with
  | nil => simp [placeInOrder]
  | cons d l ih =>
    unfold placeInOrder
    split
    · simp
    · simp only [List.mem_cons, ih]
      tauto

/-- R129: an ordered list stays ordered when a candidate of another station is placed in it. -/
theorem placeInOrder_ordered (c : Candidate) : ∀ l : List Candidate, CandidatesOrdered l → (∀ x ∈ l, x.station ≠ c.station) →
    CandidatesOrdered (placeInOrder c l)
  | [], _, _ => by simp [placeInOrder, CandidatesOrdered]
  | d :: ds, h, g => by
    unfold CandidatesOrdered at h
    rw [List.pairwise_cons] at h
    unfold placeInOrder
    split
    · rename_i hb
      have hb' : d.merit < c.merit ∨ (c.merit = d.merit ∧ c.station < d.station) := by simpa [Candidate.before] using hb
      refine List.pairwise_cons.2 ⟨fun x hx => ?_, List.pairwise_cons.2 h⟩
      rcases List.mem_cons.1 hx with rfl | hx
      · omega
      · have := h.1 x hx
        omega
    · rename_i hb
      refine List.pairwise_cons.2 ⟨fun x hx => ?_, placeInOrder_ordered c ds h.2 fun x hx => g x (List.mem_cons_of_mem d hx)⟩
      rcases (mem_placeInOrder c x ds).1 hx with rfl | hx
      · have := g d List.mem_cons_self
        simp only [Candidate.before, Bool.or_eq_true, decide_eq_true_eq, Bool.and_eq_true, beq_iff_eq] at hb
        omega
      · exact h.1 x hx

/-! ### Drain completion -/

/-- R174 step 1 posts and counts: it writes the Host Link alone. -/
theorem State.foldl_loseByDrain_eq (l : List Nat) (s : State) :
    l.foldl State.loseByDrain s = { s with hl := (l.foldl State.loseByDrain s).hl } := by
  induction l generalizing s with
  | nil => rfl
  | cons i l ih =>
    have h : s.loseByDrain i = { s with hl := (s.loseByDrain i).hl } := by
      unfold State.loseByDrain
      split
      · split <;> rfl
      · rfl
    rw [List.foldl_cons, ih, h]

/-- Drain completion, whole (R174). -/
theorem State.completeDrain_eq (s : State) (reason : Reason) : s.completeDrain reason = { s with
      sp := { s.sp with plan := Vector.replicate 16 .free, changes := [], moves := [], beaconQ := [] }
      mu := { s.mu with overheard := [], listens := [] }
      rc := { s.rc with table := Vector.replicate 64 none, finds := Vector.replicate 4 none }
      cc := { s.cc with setups := [], pages := [], rotation := none }
      he := { s.he with outbound := Vector.replicate 4 none, inbound := Vector.replicate 4 none }
      bus := s.bus.clear
      sc := { s.sc with station := .configured, drain := none }
      hl := (s.completeDrain reason).hl } := by
  have h := State.foldl_loseByDrain_eq (List.range 64) s
  unfold State.completeDrain State.clearService
  generalize (List.range 64).foldl State.loseByDrain s = t at h ⊢
  generalize BitVec.ofNat 16 s.entriesUsed = n
  rw [h]
  rfl

/-! ### Burst reports -/

/-- R34: a report for an idle slot, for a slot already reported, or from a carrier that is not the plan's, is not accepted. -/
theorem State.accepts_false (s : State) (b : Burst)
    (h : (s.planned b.slot).role = .idle ∨ (s.planned b.slot).reported = true
      ∨ ∃ c, (s.planned b.slot).role.carrier? = some c ∧ c ≠ b.carrier) : s.accepts b = false := by
  rcases h with h | h | ⟨c, h, g⟩
  · simp [State.accepts, h, PlanRole.carrier?]
  · simp [State.accepts, h]
  · simp [State.accepts, h, g]

theorem State.stillCarries_iff (s : State) (slot : Nat) (h : Handset) : s.stillCarries slot h = true ↔
    ∃ c, s.slotEntry slot = .bearer c h ∨ s.slotEntry slot = .held c h := by
  unfold State.stillCarries
  cases s.slotEntry slot <;> simp

/-- R24: whether a change list holds a change of the slot and mark of another. -/
theorem samePlace_false (l : List PlanChange) (c : PlanChange) :
    (l.any fun d => d.slot == c.slot && d.mark == c.mark) = false ↔ ∀ d ∈ l, ¬(d.slot = c.slot ∧ d.mark = c.mark) := by
  rw [List.any_eq_false]
  simp

/-- A report of the row that the beacon uplink of the plan in force asks for is marked and routed. -/
theorem State.beaconBurst_asks (s : State) (k : UplinkKind) (b : Burst) (h : s.BeaconAsks b) (g : b.ofRow k = true) :
    s.beaconBurst k b = (s.markReported b.slot).routeUplink b := by
  unfold State.BeaconAsks at h
  simp [State.beaconBurst, h, State.accepts, g, PlanRole.carrier?]

/-- A bearer report that the plan in force asks for reaches the three blocks. -/
theorem State.bearerBurst_asks (s : State) (b : Burst) (h : Handset) (i : Nat) (ha : s.BearerAsks b h)
    (hl : s.lookup h = some i) : s.bearerBurst b = (s.markReported b.slot).routeBearer i (b.forHandset h) := by
  obtain ⟨h1, h2⟩ := ha
  have h3 : (s.markReported b.slot).stillCarries b.slot h = true := h2
  simp [State.bearerBurst, h1, State.accepts, PlanRole.carrier?, State.bearerFor, h3, hl]

/-- A held report that the plan in force asks for is measured and handed on. -/
theorem State.heldBurst_asks (s : State) (b : Burst) (h : Handset) (i : Nat) (ha : s.HeldAsks b h)
    (hl : s.lookup h = some i) :
    s.heldBurst b = ((s.markReported b.slot).measure i (b.forHandset h)).heldTakesReport i (b.forHandset h) := by
  obtain ⟨h1, h2⟩ := ha
  have h3 : (s.markReported b.slot).stillCarries b.slot h = true := h2
  simp [State.heldBurst, h1, State.accepts, PlanRole.carrier?, State.heldFor, h3, hl]

/-- A record found for a handset and a seek number is in use, with that number. -/
theorem State.outFor?_some {s : State} {h : Handset} {k : BitVec 8} {r : Nat} {o : OutRecord}
    (g : s.outFor? h k = some (r, o)) : s.outRecord? r = some o ∧ o.seek = k := by
  unfold State.outFor? at g
  split at g
  · split at g
    · rw [Option.bind_eq_some_iff] at g
      obtain ⟨a, ha, hb⟩ := g
      split at hb
      · rename_i hk
        cases hb
        exact ⟨ha, by simpa using hk⟩
      · simp at hb
    · simp at g
  · simp at g

end Sys2Proof.Machine
end

