-- ==== Sys2Proof/Laws/Records.lean ====
section
/-! SUPPORT. Records as bytes: how values fall into bytes, how long the host's records are, and the bytes of a transaction. -/
namespace Sys2Proof.Machine

/-! ### Values as bytes -/

theorem byte_of_div {n : Nat} (x : BitVec n) (i : Nat) : BitVec.ofNat 8 (x.toNat / 2 ^ i) = x.extractLsb' i 8 := by
  apply BitVec.eq_of_toNat_eq
  simp [BitVec.extractLsb'_toNat, Nat.shiftRight_eq_div_pow]

theorem bytesOf_length (count v : Nat) : (bytesOf count v).length = count := by simp [bytesOf]

theorem bytesOf_two (v : Nat) : bytesOf 2 v = [BitVec.ofNat 8 (v / 256), BitVec.ofNat 8 v] := by simp [bytesOf, List.range_succ]

theorem bytesOf_toNat16 (v : BitVec 16) : bytesOf 2 v.toNat = [v.extractLsb' 8 8, v.extractLsb' 0 8] := by
  simp [bytesOf, List.range_succ, ← byte_of_div]

theorem bytesOf_toNat24 (v : BitVec 24) :
    bytesOf 3 v.toNat = [v.extractLsb' 16 8, v.extractLsb' 8 8, v.extractLsb' 0 8] := by
  simp [bytesOf, List.range_succ, ← byte_of_div]

theorem bytesOf_toNat32 (v : BitVec 32) :
    bytesOf 4 v.toNat = [v.extractLsb' 24 8, v.extractLsb' 16 8, v.extractLsb' 8 8, v.extractLsb' 0 8] := by
  simp [bytesOf, List.range_succ, ← byte_of_div]

/-! ### The response record -/

theorem HeldReport.record_length (r : HeldReport) : r.record.length = 54 := by
  simp only [HeldReport.record, List.length_append, List.length_cons, List.length_nil, bytesOf_length, List.length_take,
    List.length_replicate]
  omega

theorem ResponseBody.record_length_le (b : ResponseBody) : b.record.length ≤ 61 := by
  cases b <;> simp [ResponseBody.record, EventRecord.record, bytesOf_length, StatusReport.record, Tallies.toList,
    HeldReport.record_length]

theorem Response.record_length (r : Response) : r.record.length = 64 := by simp [Response.record]

/-! ### The command record -/

/-- Bytes clocked beyond a record leave its own bytes as they are. -/
theorem clockedByte_append (bytes extra : List Byte) (k : Nat) (h : k < bytes.length) :
    clockedByte (bytes ++ extra) k = clockedByte bytes k := by
  simp [clockedByte, List.getElem?_append, h]

/-- The first n bytes after the code, taken together, lie below 256 to the n. -/
theorem configArgument_fold_lt (bytes : List Byte) (n : Nat) :
    (List.range n).foldl (fun v k => 256 * v + (clockedByte bytes (k + 1)).toNat) 0 < 256 ^ n := by
  induction n with
  | zero => simp
  | succ n ih =>
    rw [List.range_succ, List.foldl_append]
    have := (clockedByte bytes (n + 1)).isLt
    simp only [List.foldl_cons, List.foldl_nil]
    omega

/-- Each of the first n bytes after the code keeps its place when they are taken together. -/
theorem configArgument_fold_byte (bytes : List Byte) (k : Nat) : ∀ n : Nat, k < n →
    (List.range n).foldl (fun v j => 256 * v + (clockedByte bytes (j + 1)).toNat) 0 / 256 ^ (n - 1 - k) % 256
      = (clockedByte bytes (k + 1)).toNat
  | 0, h => absurd h (Nat.not_lt_zero k)
  | n + 1, h => by
    rw [List.range_succ, List.foldl_append]
    simp only [List.foldl_cons, List.foldl_nil]
    have a := (clockedByte bytes (n + 1)).isLt
    by_cases e : k = n
    · subst e
      have z : k + 1 - 1 - k = 0 := by omega
      rw [z, pow_zero, Nat.div_one]
      omega
    · have z : n + 1 - 1 - k = (n - 1 - k) + 1 := by omega
      rw [z, pow_succ', ← Nat.div_div_eq_div_mul]
      have d : ∀ v : Nat, (256 * v + (clockedByte bytes (n + 1)).toNat) / 256 = v := fun v => by omega
      rw [d]
      exact configArgument_fold_byte bytes k n (by omega)

/-- R190: byte k of the configuration record is byte k + 1 of the command record. -/
theorem configArgument_byte (bytes : List Byte) (k : Nat) (h : k < 35) :
    (configArgument bytes).extractLsb' (8 * (34 - k)) 8 = clockedByte bytes (k + 1) := by
  apply BitVec.eq_of_toNat_eq
  simp only [BitVec.extractLsb'_toNat, configArgument, BitVec.toNat_ofNat, Nat.shiftRight_eq_div_pow]
  have a : (2 : Nat) ^ (8 * (34 - k)) = 256 ^ (34 - k) := by rw [pow_mul]; norm_num
  have b : (2 : Nat) ^ 280 = 256 ^ 35 := by rw [show (256 : Nat) = 2 ^ 8 from rfl, ← pow_mul]
  rw [a, b, Nat.mod_eq_of_lt (configArgument_fold_lt bytes 35)]
  exact configArgument_fold_byte bytes k 35 h

end Sys2Proof.Machine
end

