-- ==== Sys2Proof/Laws/Strobes.lean ====
section
/-! SUPPORT. What the work of strobes and sync losses never touches: for each piece of it one lemma, composed by
transitivity. -/
namespace Sys2Proof.Machine

/-- What a piece of strobe or loss work keeps: everything of KeptByFrames, and the Time Base. -/
def State.Kept (s t : State) : Prop := s.KeptByFrames t ∧ t.tb = s.tb

theorem State.Kept.refl (s : State) : s.Kept s := ⟨⟨rfl, rfl, rfl, rfl, rfl, rfl, rfl, rfl, rfl, rfl⟩, rfl⟩

theorem State.KeptByFrames.trans {s t u : State} (h : s.KeptByFrames t) (g : t.KeptByFrames u) : s.KeptByFrames u := by
  obtain ⟨h1, h2, h3, h4, h5, h6, h7, h8, h9, h10⟩ := h
  obtain ⟨g1, g2, g3, g4, g5, g6, g7, g8, g9, g10⟩ := g
  exact ⟨g1.trans h1, g2.trans h2, g3.trans h3, g4.trans h4, g5.trans h5, g6.trans h6, g7.trans h7, g8.trans h8,
    g9.trans h9, g10.trans h10⟩

theorem State.Kept.trans {s t u : State} (h : s.Kept t) (g : t.Kept u) : s.Kept u :=
  ⟨h.1.trans g.1, g.2.trans h.2⟩

/-- A list of steps keeps what each step keeps. -/
theorem State.Kept.foldl {α : Type} (f : State → α → State) (h : ∀ (s : State) (a : α), s.Kept (f s a)) (l : List α) (s : State) :
    s.Kept (l.foldl f s) := by
  induction l generalizing s with
  | nil => exact State.Kept.refl s
  | cons a l ih => exact (h s a).trans (ih (f s a))

/-! ### The shared operations -/

theorem State.kept_post (s : State) (k : EventKind) (h : Handset) (o : Nat) (t : Tag) (r : Reason) :
    s.Kept (s.post k h o t r) := by simp [State.Kept, State.KeptByFrames]

theorem State.kept_count (s : State) (k : Tally) : s.Kept (s.count k) := by simp [State.Kept, State.KeptByFrames]

theorem State.kept_countBy (s : State) (k : Tally) (n : Nat) : s.Kept (s.countBy k n) := by
  simp [State.Kept, State.KeptByFrames]

theorem State.kept_callLost (s : State) (e : Entry) (o : Nat) (r : Reason) : s.Kept (s.callLost e o r) :=
  (s.kept_post _ _ _ _ _).trans (State.kept_count _ _)

theorem State.kept_setEntry (s : State) (i : Nat) (e : Option Entry) : s.Kept (s.setEntry i e) := by
  simp [State.Kept, State.KeptByFrames]

theorem State.kept_modifyEntry (s : State) (i : Nat) (f : Entry → Entry) : s.Kept (s.modifyEntry i f) := by
  unfold State.modifyEntry
  split
  · exact s.kept_setEntry _ _
  · exact State.Kept.refl s

theorem State.kept_removePage (s : State) (h : Handset) : s.Kept (s.removePage h) := by simp [State.Kept, State.KeptByFrames]

theorem State.kept_freeEntry (s : State) (i : Nat) : s.Kept (s.freeEntry i) := by
  unfold State.freeEntry
  split
  · exact (s.kept_removePage _).trans (State.kept_setEntry _ _ _)
  · exact State.Kept.refl s

theorem State.kept_toIdle (s : State) (i : Nat) : s.Kept (s.toIdle i) := s.kept_modifyEntry _ _

theorem State.kept_dropSetup (s : State) (i : Nat) : s.Kept (s.dropSetup i) := by simp [State.Kept, State.KeptByFrames]

theorem State.kept_setOut (s : State) (r : Nat) (o : Option OutRecord) : s.Kept (s.setOut r o) := by
  simp [State.Kept, State.KeptByFrames]

theorem State.kept_setIn (s : State) (r : Nat) (o : Option InRecord) : s.Kept (s.setIn r o) := by
  simp [State.Kept, State.KeptByFrames]

theorem State.kept_setFind (s : State) (r : Nat) (f : Option FindRecord) : s.Kept (s.setFind r f) := by
  simp [State.Kept, State.KeptByFrames]

theorem State.kept_freeSlot (s : State) (slot : Nat) : s.Kept (s.freeSlot slot) := by simp [State.Kept, State.KeptByFrames]

theorem State.kept_writeSlot (s : State) (slot : Nat) (e : SlotEntry) : s.Kept (s.writeSlot slot e) := by
  simp [State.Kept, State.KeptByFrames]

theorem State.kept_withdrawMove (s : State) (slot : Nat) : s.Kept (s.withdrawMove slot) := by
  simp [State.Kept, State.KeptByFrames]

theorem State.kept_withdrawMoveOf (s : State) (i : Nat) : s.Kept (s.withdrawMoveOf i) := by
  simp [State.Kept, State.KeptByFrames]

theorem State.kept_freeBearer (s : State) (e : Entry) : s.Kept (s.freeBearer e) := by simp [State.Kept, State.KeptByFrames]

theorem State.kept_offer (s : State) (n : Notice) : s.Kept (s.offer n) := by
  unfold State.offer
  split
  · exact State.Kept.refl s
  · split
    · exact s.kept_count _
    · exact State.Kept.refl s
  · split
    · exact s.kept_count _
    · exact State.Kept.refl s
  · exact ⟨⟨rfl, rfl, rfl, rfl, rfl, rfl, rfl, rfl, rfl, rfl⟩, rfl⟩
  · exact ⟨⟨rfl, rfl, rfl, rfl, rfl, rfl, rfl, rfl, rfl, rfl⟩, rfl⟩

theorem State.kept_offerClaim (s : State) (i : Nat) : s.Kept (s.offerClaim i) := by
  unfold State.offerClaim
  split
  · exact (s.kept_offer _).trans (State.kept_modifyEntry _ _ _)
  · exact State.Kept.refl s

theorem kept_readmitFrom (l : List Nat) (s : State) : s.Kept (readmitFrom l s) := by
  induction l generalizing s with
  | nil => exact State.Kept.refl s
  | cons i l ih =>
    unfold readmitFrom
    split
    · split
      · split
        · exact (s.kept_offerClaim i).trans (ih _)
        · exact State.Kept.refl s
      · exact ih s
    · exact ih s

theorem State.kept_occupancyFell (s : State) : s.Kept s.occupancyFell := by
  unfold State.occupancyFell
  refine State.Kept.trans ?_ (kept_readmitFrom _ _)
  exact ⟨⟨rfl, rfl, rfl, rfl, rfl, rfl, rfl, rfl, rfl, rfl⟩, rfl⟩

theorem State.kept_loseByDrain (s : State) (i : Nat) : s.Kept (s.loseByDrain i) := by
  unfold State.loseByDrain
  split
  · split
    · exact s.kept_callLost _ _ _
    · exact State.Kept.refl s
  · exact State.Kept.refl s

theorem State.kept_clearService (s : State) : s.Kept s.clearService := by
  have h := State.Kept.foldl State.loseByDrain State.kept_loseByDrain (List.range 64) s
  unfold State.clearService
  generalize (List.range 64).foldl State.loseByDrain s = t at h ⊢
  obtain ⟨⟨h1, h2, h3, h4, h5, h6, h7, h8, h9, h10⟩, h11⟩ := h
  exact ⟨⟨h1, h2, h3, h4, h5, h6, h7, h8, h9, h10⟩, h11⟩

theorem State.kept_completeDrain (s : State) (reason : Reason) : s.Kept (s.completeDrain reason) := by
  have h := (s.kept_clearService).trans (State.kept_post _ .left 0 0 (BitVec.ofNat 16 s.entriesUsed) reason)
  unfold State.completeDrain
  generalize s.clearService.post .left 0 0 (BitVec.ofNat 16 s.entriesUsed) reason = t at h ⊢
  obtain ⟨⟨h1, h2, h3, h4, h5, h6, h7, h8, h9, h10⟩, h11⟩ := h
  exact ⟨⟨h1, h2, h3, h4, h5, h6, h7, h8, h9, h10⟩, h11⟩

theorem State.kept_drainTest (s : State) : s.Kept s.drainTest := by
  unfold State.drainTest
  split
  · exact s.kept_completeDrain _
  · exact State.Kept.refl s

/-! ### The work of the Handover Engine -/

theorem State.kept_failEntry (s : State) (i : Nat) (reason : Reason) (other : Nat) : s.Kept (s.failEntry i reason other) := by
  unfold State.failEntry
  split
  · exact ((s.kept_post _ _ _ _ _).trans (State.kept_count _ _)).trans (State.kept_modifyEntry _ _ _)
  · exact State.Kept.refl s

theorem State.kept_failAttempt (s : State) (r : Nat) (reason : Reason) (other : Nat) :
    s.Kept (s.failAttempt r reason other) := by
  unfold State.failAttempt
  split
  · exact (s.kept_failEntry _ _ _).trans (State.kept_setOut _ _ _)
  · exact State.Kept.refl s

theorem kept_askFrom (r : Nat) (o : OutRecord) (e : Entry) (l : List Candidate) (reason : Reason) (other : Nat) (s : State) :
    s.Kept (askFrom r o e l reason other s) := by
  induction l generalizing reason other with
  | nil => exact s.kept_failAttempt _ _ _
  | cons c l ih =>
    unfold askFrom
    split
    · exact (s.kept_offer _).trans (State.kept_setOut _ _ _)
    · exact ih _ _

theorem State.kept_closeWindow (s : State) (r : Nat) : s.Kept (s.closeWindow r) := by
  unfold State.closeWindow
  split
  · split
    · exact kept_askFrom _ _ _ _ _ _ s
    all_goals exact State.Kept.refl s
  · exact State.Kept.refl s

theorem State.kept_nextCandidate (s : State) (r : Nat) (reason : Reason) : s.Kept (s.nextCandidate r reason) := by
  unfold State.nextCandidate
  split
  · split
    · exact kept_askFrom _ _ _ _ _ _ s
    all_goals exact State.Kept.refl s
  · exact State.Kept.refl s

theorem State.kept_startFallback (s : State) (r : Nat) : s.Kept (s.startFallback r) := by
  unfold State.startFallback
  split
  · split
    · exact (s.kept_withdrawMoveOf _).trans (State.kept_setOut _ _ _)
    all_goals exact State.Kept.refl s
  · exact State.Kept.refl s

theorem State.kept_loseHandover (s : State) (r i : Nat) (e : Entry) (target : Nat) (reason : Reason) :
    s.Kept (s.loseHandover r i e target reason) :=
  ((((s.kept_freeBearer e).trans (State.kept_callLost _ _ _ _)).trans (State.kept_freeEntry _ _)).trans
    (State.kept_setOut _ _ _)).trans (State.kept_drainTest _)

theorem State.kept_expireFallback (s : State) (r : Nat) : s.Kept (s.expireFallback r) := by
  unfold State.expireFallback
  split
  · split
    · exact s.kept_loseHandover _ _ _ _ _
    all_goals exact State.Kept.refl s
  · exact State.Kept.refl s

theorem State.kept_stayOnOld (s : State) (i : Nat) (e : Entry) : s.Kept (s.stayOnOld i e) := by
  unfold State.stayOnOld
  split
  · exact (s.kept_withdrawMove _).trans (State.kept_setEntry _ _ _)
  all_goals exact State.Kept.refl s

theorem State.kept_releaseOut (s : State) (r : Nat) : s.Kept (s.releaseOut r) := by
  unfold State.releaseOut
  split
  · split
    · exact s.kept_failAttempt _ _ _
    · exact s.kept_failAttempt _ _ _
    · exact (s.kept_stayOnOld _ _).trans (State.kept_failAttempt _ _ _ _)
    · exact s.kept_loseHandover _ _ _ _ _
    · exact s.kept_setOut _ _
  · exact State.Kept.refl s

theorem State.kept_startAwaiting (s : State) (r : Nat) : s.Kept (s.startAwaiting r) := by
  unfold State.startAwaiting
  split
  · split
    · exact s.kept_setIn _ _
    · exact State.Kept.refl s
  · exact State.Kept.refl s

theorem State.kept_missArrival (s : State) (r : Nat) (reason : Reason) : s.Kept (s.missArrival r reason) := by
  unfold State.missArrival
  split
  · split
    · exact (((((s.kept_freeBearer _).trans (State.kept_freeEntry _ _)).trans (State.kept_post _ _ _ _ _ _)).trans
        (State.kept_count _ _)).trans (State.kept_setIn _ _ _)).trans (State.kept_drainTest _)
    · exact s.kept_setIn _ _
  · exact State.Kept.refl s

theorem State.kept_expireArrival (s : State) (r : Nat) : s.Kept (s.expireArrival r) := by
  unfold State.expireArrival
  split
  · split
    · exact s.kept_missArrival _ _
    · exact State.Kept.refl s
  · exact State.Kept.refl s

/-! ### The work of a strobe report -/

theorem State.kept_silenceTick (s : State) (i : Nat) : s.Kept (s.silenceTick i) := by
  unfold State.silenceTick
  split
  · split
    · split
      · exact (s.kept_freeEntry _).trans (State.kept_post _ _ _ _ _ _)
      · exact s.kept_setEntry _ _
    all_goals exact State.Kept.refl s
  · exact State.Kept.refl s

theorem State.kept_setupFails (s : State) (i : Nat) (e : Entry) (discarded : Bool) : s.Kept (s.setupFails i e discarded) :=
  ((((s.kept_freeBearer e).trans (State.kept_toIdle _ _)).trans (State.kept_dropSetup _ _)).trans
    (State.kept_post _ _ _ _ _ _)).trans (State.kept_drainTest _)

theorem State.kept_setupStrobe (s : State) (i : Nat) : s.Kept (s.setupStrobe i) := by
  unfold State.setupStrobe
  split
  · split
    · unfold State.setupReachesZero
      split
      · exact s.kept_setupFails _ _ _
      · exact s.kept_dropSetup _
    · exact ⟨⟨rfl, rfl, rfl, rfl, rfl, rfl, rfl, rfl, rfl, rfl⟩, rfl⟩
  · exact State.Kept.refl s

theorem State.kept_pageFails (s : State) (h : Handset) (reason : Reason) : s.Kept (s.pageFails h reason) := by
  unfold State.pageFails
  split
  · exact (s.kept_removePage _).trans (State.kept_post _ _ _ _ _ _)
  · exact State.Kept.refl s

theorem State.kept_pageStrobe (s : State) (h : Handset) : s.Kept (s.pageStrobe h) := by
  unfold State.pageStrobe
  split
  · split
    · exact s.kept_pageFails _ _
    · exact ⟨⟨rfl, rfl, rfl, rfl, rfl, rfl, rfl, rfl, rfl, rfl⟩, rfl⟩
  · exact State.Kept.refl s

theorem State.kept_expireFind (s : State) (r : Nat) (f : FindRecord) : s.Kept (s.expireFind r f) := by
  unfold State.expireFind
  refine (s.kept_setFind r none).trans ?_
  unfold State.reportFind
  split
  · exact State.kept_post _ _ _ _ _ _
  · split <;> exact State.kept_post _ _ _ _ _ _

theorem State.kept_findStrobe (s : State) (r : Nat) : s.Kept (s.findStrobe r) := by
  unfold State.findStrobe
  split
  · split
    · exact s.kept_expireFind _ _
    · exact s.kept_setFind _ _
  · exact State.Kept.refl s

theorem State.kept_outStrobe (s : State) (r : Nat) : s.Kept (s.outStrobe r) := by
  unfold State.outStrobe
  split
  · split
    · split
      · exact s.kept_closeWindow _
      · exact State.Kept.refl s
    · split
      · exact s.kept_nextCandidate _ _
      · exact s.kept_setOut _ _
    · split
      · exact s.kept_startFallback _
      · exact State.Kept.refl s
    · split
      · exact s.kept_expireFallback _
      · exact s.kept_setOut _ _
  · exact State.Kept.refl s

theorem State.kept_inStrobe (s : State) (r : Nat) : s.Kept (s.inStrobe r) := by
  unfold State.inStrobe
  split
  · split
    · split
      · exact s.kept_startAwaiting _
      · exact State.Kept.refl s
    · split
      · exact s.kept_expireArrival _
      · exact s.kept_setIn _ _
  · exact State.Kept.refl s

theorem State.kept_becomeActive (s : State) : s.Kept s.becomeActive :=
  ⟨⟨rfl, rfl, rfl, rfl, rfl, rfl, by simp [State.becomeActive], by simp [State.becomeActive], rfl, rfl⟩, rfl⟩

theorem State.kept_setQuiet (s : State) (q : Option Nat) : s.Kept (s.setQuiet q) :=
  ⟨⟨rfl, rfl, rfl, rfl, rfl, rfl, rfl, rfl, rfl, rfl⟩, rfl⟩

theorem State.kept_quietStrobe (s : State) : s.Kept s.quietStrobe := by
  unfold State.quietStrobe
  split
  · split
    · split
      · exact s.kept_becomeActive
      · exact State.Kept.refl s
    · unfold State.quietReachesZero
      split
      · exact s.kept_becomeActive
      · exact s.kept_setQuiet _
    · exact s.kept_setQuiet _
    · exact State.Kept.refl s
  · exact State.Kept.refl s

theorem State.kept_drainTick (s : State) : s.Kept s.drainTick := by
  unfold State.drainTick
  split
  · split
    · exact State.Kept.refl s
    · exact s.kept_completeDrain _
    · exact ⟨⟨rfl, rfl, rfl, rfl, rfl, rfl, rfl, rfl, rfl, rfl⟩, rfl⟩
    · exact State.Kept.refl s
  · exact State.Kept.refl s

theorem State.kept_plannerStrobe (s : State) : s.Kept s.plannerStrobe := by
  simp [State.Kept, State.KeptByFrames]
  unfold State.plannerStrobe State.buildPlan
  split
  · unfold State.afterArbiter
    split <;> exact ⟨rfl, rfl⟩
  · exact ⟨rfl, rfl⟩

theorem kept_doStrobeWork (s : State) (w : StrobeWork) : s.Kept (doStrobeWork s w) := by
  cases w with
  | measurement => exact ⟨⟨rfl, rfl, rfl, rfl, rfl, rfl, rfl, rfl, rfl, rfl⟩, rfl⟩
  | slotPlanner => exact s.kept_plannerStrobe
  | silence i =>
    simp only [doStrobeWork]
    split
    · exact s.kept_silenceTick _
    · exact State.Kept.refl s
  | setup i => exact s.kept_setupStrobe _
  | page h => exact s.kept_pageStrobe _
  | findRecord r => exact s.kept_findStrobe _
  | outbound r => exact s.kept_outStrobe _
  | inbound r => exact s.kept_inStrobe _
  | quietPeriod => exact s.kept_quietStrobe
  | drainLimit =>
    simp only [doStrobeWork]
    split
    · exact s.kept_drainTick
    · exact State.Kept.refl s
  | occupancy => exact s.kept_countBy _ _

/-- A strobe report leaves the Time Base and the rest of KeptByFrames as they are, in any order. -/
theorem State.kept_strobeReport (s : State) (order : List StrobeWork) : s.Kept (s.strobeReport order) := by
  unfold State.strobeReport
  refine State.Kept.trans ?_ (State.Kept.foldl doStrobeWork kept_doStrobeWork _ _)
  exact State.Kept.foldl (fun t (i : Fin 64) => t.holdoffStrobe i.val) (fun t i => t.kept_modifyEntry _ _) tableIndices s

/-! ### The work of a sync loss report -/

theorem State.kept_busLoss (s : State) : s.Kept s.busLoss := by
  unfold State.busLoss
  dsimp only
  split
  · exact ⟨⟨rfl, rfl, rfl, rfl, rfl, rfl, rfl, rfl, rfl, rfl⟩, rfl⟩
  · refine State.Kept.trans ?_ (State.kept_occupancyFell _)
    exact ⟨⟨rfl, rfl, rfl, rfl, rfl, rfl, rfl, rfl, rfl, rfl⟩, rfl⟩

theorem kept_doLossWork (s : State) (w : LossWork) : s.Kept (doLossWork s w) := by
  cases w with
  | slotPlanner => exact ⟨⟨rfl, rfl, rfl, rfl, rfl, rfl, rfl, rfl, rfl, rfl⟩, rfl⟩
  | measurement => exact ⟨⟨rfl, rfl, rfl, rfl, rfl, rfl, rfl, rfl, rfl, rfl⟩, rfl⟩
  | outbound r => exact s.kept_releaseOut _
  | inbound r => exact s.kept_missArrival _ _
  | bus => exact s.kept_busLoss

/-- A sync loss report leaves the Time Base and the rest of KeptByFrames as they are, in any order. -/
theorem State.kept_lossReport (s : State) (loss : List LossWork) : s.Kept (s.lossReport loss) :=
  State.Kept.foldl doLossWork kept_doLossWork _ s

/-! ### The pieces of a strobe's work -/

/-- The holdoffs write the attachment table alone, and no place that is FREE. -/
theorem State.holdoffsStrobe_eq (s : State) :
    s.holdoffsStrobe = { s with rc := { s.rc with table := s.holdoffsStrobe.rc.table } }
    ∧ ∀ i, s.entry? i = none → s.holdoffsStrobe.entry? i = none := by
  unfold State.holdoffsStrobe
  generalize tableIndices = l
  induction l generalizing s with
  | nil => exact ⟨rfl, fun _ h => h⟩
  | cons k l ih =>
    rw [List.foldl_cons]
    obtain ⟨h1, h2⟩ := ih (s.holdoffStrobe k.val)
    have g : s.holdoffStrobe k.val = { s with rc := { s.rc with table := (s.holdoffStrobe k.val).rc.table } } := by
      unfold State.holdoffStrobe State.modifyEntry
      split <;> rfl
    refine ⟨?_, fun i h => h2 i ?_⟩
    · rw [h1, g]
    · unfold State.holdoffStrobe
      cases e : s.entry? k.val with
      | none => rw [State.modifyEntry_none _ _ _ e]; exact h
      | some f =>
        rw [State.modifyEntry_some _ _ _ _ e, State.entry?_setEntry_other _ _ _ _ (by rintro rfl; simp [e] at h)]
        exact h

theorem State.cc_holdoffsStrobe (s : State) : s.holdoffsStrobe.cc = s.cc := by
  rw [s.holdoffsStrobe_eq.1]

/-- The work has no piece twice when the pages are of distinct handsets. -/
theorem State.nodup_strobeWork (s : State) (h : (s.cc.pages.map (·.handset)).Nodup) : s.strobeWork.Nodup := by
  have entries : ((tableIndices.filter fun i => (s.entry? i.val).isSome).flatMap
      fun i => [StrobeWork.silence i, .setup i]).Nodup := by
    rw [List.nodup_flatMap]
    refine ⟨fun x _ => by simp, List.Pairwise.imp ?_ ((List.nodup_finRange 64).filter _)⟩
    intro a b hab
    simp [Function.onFun, Ne.symm hab]
  have pages : (s.cc.pages.map fun p => StrobeWork.page p.handset).Nodup := by
    rw [show (fun p : PageRecord => StrobeWork.page p.handset) = StrobeWork.page ∘ (·.handset) from rfl, ← List.map_map]
    exact h.map fun a b g => by cases g; rfl
  have records : (recordIndices.flatMap fun r => [StrobeWork.findRecord r, .outbound r, .inbound r]).Nodup := by decide
  unfold State.strobeWork
  simp only [List.nodup_append, entries, pages, records]
  simp [List.mem_flatMap]
  refine ⟨⟨⟨?_, ?_⟩, ?_⟩, ?_⟩ <;> aesop

/-! ### The order a command asks for -/

/-- Every piece of the work is done, whatever order is asked for. -/
theorem mem_scheduled {α : Type} [DecidableEq α] (order all : List α) (x : α) : x ∈ scheduled order all ↔ x ∈ all := by
  unfold scheduled
  rw [List.mem_append, List.mem_eraseDups, List.mem_filter, List.mem_filter]
  by_cases h : x ∈ order <;> simp [h]

theorem nodup_eraseDups {α : Type} [DecidableEq α] : ∀ l : List α, l.eraseDups.Nodup
  | [] => List.nodup_nil
  | a :: l => by
    rw [List.eraseDups_cons, List.nodup_cons]
    exact ⟨by simp [List.mem_eraseDups], nodup_eraseDups _⟩
termination_by l => l.length
decreasing_by exact Nat.lt_succ_of_le (List.length_filter_le _ l)

theorem eraseDups_of_nodup {α : Type} [DecidableEq α] (l : List α) (h : l.Nodup) : l.eraseDups = l := by
  induction l with
  | nil => rfl
  | cons a l ih =>
    obtain ⟨h1, h2⟩ := List.nodup_cons.mp h
    rw [List.eraseDups_cons, List.filter_eq_self.mpr, ih h2]
    intro b hb
    simp only [Bool.not_eq_true', beq_eq_false_iff_ne]
    rintro rfl
    exact h1 hb

/-- No piece of the work is done twice, if none is there twice. -/
theorem nodup_scheduled {α : Type} [DecidableEq α] (order all : List α) (h : all.Nodup) : (scheduled order all).Nodup := by
  unfold scheduled
  rw [List.nodup_append]
  refine ⟨nodup_eraseDups _, h.filter _, ?_⟩
  rintro x hx _ hy rfl
  simp only [List.mem_eraseDups, List.mem_filter, decide_eq_true_eq] at hx hy
  exact hy.2 hx.1

/-- An order that names every piece once is the order of the work. -/
theorem scheduled_of_perm {α : Type} [DecidableEq α] (order all : List α) (h : order.Nodup)
    (g : ∀ x, x ∈ order ↔ x ∈ all) : scheduled order all = order := by
  unfold scheduled
  rw [List.filter_eq_self.mpr, List.filter_eq_nil_iff.mpr, List.append_nil, eraseDups_of_nodup _ h]
  · intro x hx
    simp [(g x).mpr hx]
  · intro x hx
    simp [(g x).mp hx]

theorem mem_lossWork (w : LossWork) : w ∈ lossWork := by cases w <;> simp [lossWork, recordIndices]

theorem nodup_lossWork : lossWork.Nodup := by decide

/-- A fact that one piece of the work establishes and no piece undoes holds after the work. -/
theorem foldl_reaches {σ α : Type} (f : σ → α → σ) (P : σ → Prop) (keep : ∀ s a, P s → P (f s a)) (x : α)
    (make : ∀ s, P (f s x)) (l : List α) (hx : x ∈ l) (s : σ) : P (l.foldl f s) := by
  have stays : ∀ (l : List α) (s : σ), P s → P (l.foldl f s) := by
    intro l
    induction l with
    | nil => exact fun s h => h
    | cons a l ih => exact fun s h => ih (f s a) (keep s a h)
  induction l generalizing s with
  | nil => exact absurd hx (List.not_mem_nil)
  | cons a l ih =>
    rcases List.mem_cons.mp hx with rfl | h
    · exact stays l _ (make s)
    · exact ih h (f s a)

end Sys2Proof.Machine
end

