-- ==== Sys2Proof/Laws/Released.lean ====
section
/-! SUPPORT. The work of strobes and sync losses takes plan changes, targeted listens and handover records away and adds none
where there was none; and a sync loss leaves none of them. -/
namespace Sys2Proof.Machine

/-- No plan change and no targeted listen in t that was not in s, and no handover record in a place that was free in s. -/
structure State.NoNew (s t : State) : Prop where
  changes : t.sp.changes ⊆ s.sp.changes
  listens : t.mu.listens ⊆ s.mu.listens
  outbound : ∀ r, s.outRecord? r = none → t.outRecord? r = none
  inbound : ∀ r, s.inRecord? r = none → t.inRecord? r = none

theorem State.NoNew.refl (s : State) : s.NoNew s := ⟨fun _ h => h, fun _ h => h, fun _ h => h, fun _ h => h⟩

theorem State.NoNew.trans {s t u : State} (h : s.NoNew t) (g : t.NoNew u) : s.NoNew u :=
  ⟨fun _ x => h.changes (g.changes x), fun _ x => h.listens (g.listens x), fun r x => g.outbound r (h.outbound r x),
    fun r x => g.inbound r (h.inbound r x)⟩

theorem State.NoNew.foldl {α : Type} (f : State → α → State) (h : ∀ (s : State) (a : α), s.NoNew (f s a)) (l : List α)
    (s : State) : s.NoNew (l.foldl f s) := by
  induction l generalizing s with
  | nil => exact State.NoNew.refl s
  | cons a l ih => exact (h s a).trans (ih (f s a))

/-- An operation that leaves the four collections as they are. -/
theorem State.NoNew.of_eq {s t : State} (h1 : t.sp.changes = s.sp.changes) (h2 : t.mu.listens = s.mu.listens)
    (h3 : t.he = s.he) : s.NoNew t := by
  refine ⟨?_, ?_, ?_, ?_⟩
  · rw [h1]
    exact fun _ h => h
  · rw [h2]
    exact fun _ h => h
  · intro r h
    simpa only [State.outRecord?, h3] using h
  · intro r h
    simpa only [State.inRecord?, h3] using h

theorem State.noNew_post (s : State) (k : EventKind) (h : Handset) (o : Nat) (t : Tag) (r : Reason) :
    s.NoNew (s.post k h o t r) := .of_eq (by simp) (by simp) (by simp)

theorem State.noNew_count (s : State) (k : Tally) : s.NoNew (s.count k) := .of_eq (by simp) (by simp) (by simp)

theorem State.noNew_callLost (s : State) (e : Entry) (o : Nat) (r : Reason) : s.NoNew (s.callLost e o r) :=
  .of_eq (by simp) (by simp) (by simp)

theorem State.noNew_setEntry (s : State) (i : Nat) (e : Option Entry) : s.NoNew (s.setEntry i e) :=
  .of_eq (by simp) (by simp) (by simp)

theorem State.noNew_modifyEntry (s : State) (i : Nat) (f : Entry → Entry) : s.NoNew (s.modifyEntry i f) :=
  .of_eq (by simp) (by simp) (by simp)

theorem State.noNew_removePage (s : State) (h : Handset) : s.NoNew (s.removePage h) := .of_eq (by simp) (by simp) (by simp)

theorem State.noNew_freeEntry (s : State) (i : Nat) : s.NoNew (s.freeEntry i) := .of_eq (by simp) (by simp) (by simp)

theorem State.noNew_dropSetup (s : State) (i : Nat) : s.NoNew (s.dropSetup i) := .of_eq (by simp) (by simp) (by simp)

theorem State.noNew_setFind (s : State) (r : Nat) (f : Option FindRecord) : s.NoNew (s.setFind r f) :=
  .of_eq (by simp) (by simp) (by simp)

theorem State.noNew_writeSlot (s : State) (slot : Nat) (e : SlotEntry) : s.NoNew (s.writeSlot slot e) :=
  .of_eq rfl (by simp) (by simp)

theorem State.noNew_withdrawMove (s : State) (slot : Nat) : s.NoNew (s.withdrawMove slot) := .of_eq rfl (by simp) (by simp)

theorem State.noNew_withdrawMoveOf (s : State) (i : Nat) : s.NoNew (s.withdrawMoveOf i) := by
  unfold State.withdrawMoveOf
  split
  · exact s.noNew_withdrawMove _
  · exact State.NoNew.refl s

theorem State.noNew_offer (s : State) (n : Notice) : s.NoNew (s.offer n) := .of_eq (by simp) (by simp) (by simp)

theorem State.noNew_freeSlot (s : State) (slot : Nat) : s.NoNew (s.freeSlot slot) :=
  { State.NoNew.of_eq (s := s) (t := { s.freeSlot slot with sp := s.sp }) rfl (by simp) (by simp) with
    changes := s.freeSlot_changes_subset slot }

theorem State.noNew_freeBearer (s : State) (e : Entry) : s.NoNew (s.freeBearer e) := by
  unfold State.freeBearer
  split
  · exact s.noNew_freeSlot _
  · exact State.NoNew.refl s

/-- Freeing an outbound record, or writing one where there was one. -/
theorem State.noNew_setOut (s : State) (r : Nat) (o : Option OutRecord) (h : s.outRecord? r = none → o = none) :
    s.NoNew (s.setOut r o) := by
  refine { State.NoNew.of_eq (s := s) (t := { s.setOut r o with he := s.he }) (by simp) (by simp) rfl with
    outbound := ?_, inbound := ?_ }
  · intro k hk
    rw [State.outRecord?_setOut]
    split
    · rename_i g
      exact h (g.1 ▸ hk)
    · exact hk
  · intro k hk
    exact hk

theorem State.noNew_setIn (s : State) (r : Nat) (o : Option InRecord) (h : s.inRecord? r = none → o = none) :
    s.NoNew (s.setIn r o) := by
  refine { State.NoNew.of_eq (s := s) (t := { s.setIn r o with he := s.he }) (by simp) (by simp) rfl with
    outbound := ?_, inbound := ?_ }
  · intro k hk
    exact hk
  · intro k hk
    rw [State.inRecord?_setIn]
    split
    · rename_i g
      exact h (g.1 ▸ hk)
    · exact hk

theorem State.noNew_dropOut (s : State) (i : Nat) : s.NoNew (s.dropOut i) := by
  unfold State.dropOut
  split
  · exact s.noNew_setOut _ _ fun _ => rfl
  · exact State.NoNew.refl s

theorem State.noNew_dropIn (s : State) (i : Nat) : s.NoNew (s.dropIn i) := by
  unfold State.dropIn
  split
  · exact s.noNew_setIn _ _ fun _ => rfl
  · exact State.NoNew.refl s

theorem State.noNew_releaseCall (s : State) (i : Nat) (e : Entry) : s.NoNew (s.releaseCall i e) :=
  (((s.noNew_freeBearer e).trans (State.noNew_dropSetup _ _)).trans (State.noNew_dropOut _ _)).trans
    (State.noNew_dropIn _ _)

theorem State.noNew_occupancyFell (s : State) : s.NoNew s.occupancyFell := .of_eq (by simp) (by simp) (by simp)

/-- Drain completion leaves none of the four collections. -/
theorem State.completeDrain_releases (s : State) (reason : Reason) :
    (s.completeDrain reason).sp.changes = [] ∧ (s.completeDrain reason).mu.listens = []
    ∧ (∀ r, (s.completeDrain reason).outRecord? r = none) ∧ ∀ r, (s.completeDrain reason).inRecord? r = none := by
  unfold State.completeDrain State.clearService
  generalize (List.range 64).foldl State.loseByDrain s = t
  refine ⟨rfl, rfl, ?_, ?_⟩
  all_goals
    intro r
    by_cases h : r < 4 <;> simp [State.outRecord?, State.inRecord?, h]

theorem State.noNew_completeDrain (s : State) (reason : Reason) : s.NoNew (s.completeDrain reason) := by
  obtain ⟨h1, h2, h3, h4⟩ := s.completeDrain_releases reason
  refine ⟨?_, ?_, fun r _ => h3 r, fun r _ => h4 r⟩
  · rw [h1]
    exact List.nil_subset _
  · rw [h2]
    exact List.nil_subset _

theorem State.noNew_drainTest (s : State) : s.NoNew s.drainTest := by
  unfold State.drainTest
  split
  · exact s.noNew_completeDrain _
  · exact State.NoNew.refl s

theorem State.noNew_failEntry (s : State) (i : Nat) (reason : Reason) (other : Nat) : s.NoNew (s.failEntry i reason other) :=
  .of_eq (by simp) (by simp) (by simp)

theorem State.noNew_failAttempt (s : State) (r : Nat) (reason : Reason) (other : Nat) :
    s.NoNew (s.failAttempt r reason other) := by
  unfold State.failAttempt
  split
  · exact (s.noNew_failEntry _ _ _).trans (State.noNew_setOut _ _ _ fun _ => rfl)
  · exact State.NoNew.refl s

/-- Asking the candidates of a record that is in use. -/
theorem noNew_askFrom (r : Nat) (o : OutRecord) (e : Entry) (l : List Candidate) (reason : Reason) (other : Nat) (s : State)
    (h : s.outRecord? r ≠ none) : s.NoNew (askFrom r o e l reason other s) := by
  induction l generalizing reason other with
  | nil => exact s.noNew_failAttempt _ _ _
  | cons c l ih =>
    unfold askFrom
    split
    · refine (s.noNew_offer _).trans (State.noNew_setOut _ _ _ fun g => ?_)
      refine absurd ?_ h
      simpa [State.outRecord?] using g
    · exact ih _ _

theorem State.noNew_closeWindow (s : State) (r : Nat) : s.NoNew (s.closeWindow r) := by
  unfold State.closeWindow
  split
  · rename_i o ho
    split
    · exact noNew_askFrom _ _ _ _ _ _ s (by simp [ho])
    all_goals exact State.NoNew.refl s
  · exact State.NoNew.refl s

theorem State.noNew_nextCandidate (s : State) (r : Nat) (reason : Reason) : s.NoNew (s.nextCandidate r reason) := by
  unfold State.nextCandidate
  split
  · rename_i o ho
    split
    · exact noNew_askFrom _ _ _ _ _ _ s (by simp [ho])
    all_goals exact State.NoNew.refl s
  · exact State.NoNew.refl s

theorem State.noNew_startFallback (s : State) (r : Nat) : s.NoNew (s.startFallback r) := by
  unfold State.startFallback
  split
  · rename_i o ho
    split
    · refine (s.noNew_withdrawMoveOf _).trans (State.noNew_setOut _ _ _ ?_)
      rw [show (s.withdrawMoveOf o.entry).outRecord? r = s.outRecord? r by simp [State.outRecord?], ho]
      exact fun h => by simp at h
    all_goals exact State.NoNew.refl s
  · exact State.NoNew.refl s

theorem State.noNew_loseHandover (s : State) (r i : Nat) (e : Entry) (target : Nat) (reason : Reason) :
    s.NoNew (s.loseHandover r i e target reason) :=
  ((((s.noNew_freeBearer e).trans (State.noNew_callLost _ _ _ _)).trans (State.noNew_freeEntry _ _)).trans
    (State.noNew_setOut _ _ _ fun _ => rfl)).trans (State.noNew_drainTest _)

theorem State.noNew_expireFallback (s : State) (r : Nat) : s.NoNew (s.expireFallback r) := by
  unfold State.expireFallback
  split
  · split
    · exact s.noNew_loseHandover _ _ _ _ _
    all_goals exact State.NoNew.refl s
  · exact State.NoNew.refl s

theorem State.noNew_stayOnOld (s : State) (i : Nat) (e : Entry) : s.NoNew (s.stayOnOld i e) := by
  unfold State.stayOnOld
  split
  · exact (s.noNew_withdrawMove _).trans (State.noNew_setEntry _ _ _)
  all_goals exact State.NoNew.refl s

theorem State.noNew_releaseOut (s : State) (r : Nat) : s.NoNew (s.releaseOut r) := by
  unfold State.releaseOut
  split
  · split
    · exact s.noNew_failAttempt _ _ _
    · exact s.noNew_failAttempt _ _ _
    · exact (s.noNew_stayOnOld _ _).trans (State.noNew_failAttempt _ _ _ _)
    · exact s.noNew_loseHandover _ _ _ _ _
    · exact s.noNew_setOut _ _ fun _ => rfl
  · exact State.NoNew.refl s

theorem State.noNew_startAwaiting (s : State) (r : Nat) : s.NoNew (s.startAwaiting r) := by
  unfold State.startAwaiting
  split
  · rename_i o ho
    split
    · exact s.noNew_setIn _ _ (by simp [ho])
    · exact State.NoNew.refl s
  · exact State.NoNew.refl s

theorem State.noNew_missArrival (s : State) (r : Nat) (reason : Reason) : s.NoNew (s.missArrival r reason) := by
  unfold State.missArrival
  split
  · split
    · exact (((((s.noNew_freeBearer _).trans (State.noNew_freeEntry _ _)).trans (State.noNew_post _ _ _ _ _ _)).trans
        (State.noNew_count _ _)).trans (State.noNew_setIn _ _ _ fun _ => rfl)).trans (State.noNew_drainTest _)
    · exact s.noNew_setIn _ _ fun _ => rfl
  · exact State.NoNew.refl s

theorem State.noNew_expireArrival (s : State) (r : Nat) : s.NoNew (s.expireArrival r) := by
  unfold State.expireArrival
  split
  · split
    · exact s.noNew_missArrival _ _
    · exact State.NoNew.refl s
  · exact State.NoNew.refl s

/-! ### The work of a strobe report -/

theorem State.noNew_silenceTick (s : State) (i : Nat) : s.NoNew (s.silenceTick i) := by
  unfold State.silenceTick
  split
  · split
    · split
      · exact (s.noNew_freeEntry _).trans (State.noNew_post _ _ _ _ _ _)
      · exact s.noNew_setEntry _ _
    all_goals exact State.NoNew.refl s
  · exact State.NoNew.refl s

theorem State.noNew_setupStrobe (s : State) (i : Nat) : s.NoNew (s.setupStrobe i) := by
  unfold State.setupStrobe
  split
  · split
    · unfold State.setupReachesZero
      split
      · exact ((((s.noNew_freeBearer _).trans (State.noNew_modifyEntry _ _ _)).trans (State.noNew_dropSetup _ _)).trans
          (State.noNew_post _ _ _ _ _ _)).trans (State.noNew_drainTest _)
      · exact s.noNew_dropSetup _
    · exact .of_eq rfl rfl rfl
  · exact State.NoNew.refl s

theorem State.noNew_pageFails (s : State) (h : Handset) (reason : Reason) : s.NoNew (s.pageFails h reason) :=
  .of_eq (by simp) (by simp) (by simp)

theorem State.noNew_pageStrobe (s : State) (h : Handset) : s.NoNew (s.pageStrobe h) := by
  unfold State.pageStrobe
  split
  · split
    · exact s.noNew_pageFails _ _
    · exact .of_eq rfl rfl rfl
  · exact State.NoNew.refl s

theorem State.noNew_findStrobe (s : State) (r : Nat) : s.NoNew (s.findStrobe r) := by
  unfold State.findStrobe
  split
  · split
    · exact .of_eq (by simp) (by simp) (by simp)
    · exact s.noNew_setFind _ _
  · exact State.NoNew.refl s

theorem State.noNew_outStrobe (s : State) (r : Nat) : s.NoNew (s.outStrobe r) := by
  unfold State.outStrobe
  split
  · rename_i o ho
    split
    · split
      · exact s.noNew_closeWindow _
      · exact State.NoNew.refl s
    · split
      · exact s.noNew_nextCandidate _ _
      · exact s.noNew_setOut _ _ (by simp [ho])
    · split
      · exact s.noNew_startFallback _
      · exact State.NoNew.refl s
    · split
      · exact s.noNew_expireFallback _
      · exact s.noNew_setOut _ _ (by simp [ho])
  · exact State.NoNew.refl s

theorem State.noNew_inStrobe (s : State) (r : Nat) : s.NoNew (s.inStrobe r) := by
  unfold State.inStrobe
  split
  · rename_i o ho
    split
    · split
      · exact s.noNew_startAwaiting _
      · exact State.NoNew.refl s
    · split
      · exact s.noNew_expireArrival _
      · exact s.noNew_setIn _ _ (by simp [ho])
  · exact State.NoNew.refl s

theorem State.noNew_becomeActive (s : State) : s.NoNew s.becomeActive := .of_eq rfl rfl rfl

theorem State.noNew_quietStrobe (s : State) : s.NoNew s.quietStrobe := by
  unfold State.quietStrobe
  split
  · split
    · split
      · exact s.noNew_becomeActive
      · exact State.NoNew.refl s
    · unfold State.quietReachesZero
      split
      · exact s.noNew_becomeActive
      · exact .of_eq rfl rfl rfl
    · exact .of_eq rfl rfl rfl
    · exact State.NoNew.refl s
  · exact State.NoNew.refl s

theorem State.noNew_drainTick (s : State) : s.NoNew s.drainTick := by
  unfold State.drainTick
  split
  · split
    · exact State.NoNew.refl s
    · exact s.noNew_completeDrain _
    · exact .of_eq rfl rfl rfl
    · exact State.NoNew.refl s
  · exact State.NoNew.refl s

theorem State.noNew_measurementStrobe (s : State) : s.NoNew s.measurementStrobe :=
  ⟨fun _ h => h, List.filter_subset_self _, fun _ h => h, fun _ h => h⟩

theorem State.noNew_plannerStrobe (s : State) : s.NoNew s.plannerStrobe := by
  have h : s.plannerStrobe.sp.changes = s.sp.changes.filter fun c => !s.tb.due c.mark := by
    unfold State.plannerStrobe State.buildPlan
    split
    · unfold State.afterArbiter
      split <;> rfl
    · rfl
  refine ⟨?_, ?_, ?_, ?_⟩
  · rw [h]
    exact List.filter_subset_self _
  · simp
  · simp [State.outRecord?]
  · simp [State.inRecord?]

theorem noNew_doStrobeWork (s : State) (w : StrobeWork) : s.NoNew (doStrobeWork s w) := by
  cases w with
  | measurement => exact s.noNew_measurementStrobe
  | slotPlanner => exact s.noNew_plannerStrobe
  | silence i =>
    simp only [doStrobeWork]
    split
    · exact s.noNew_silenceTick _
    · exact State.NoNew.refl s
  | setup i => exact s.noNew_setupStrobe _
  | page h => exact s.noNew_pageStrobe _
  | findRecord r => exact s.noNew_findStrobe _
  | outbound r => exact s.noNew_outStrobe _
  | inbound r => exact s.noNew_inStrobe _
  | quietPeriod => exact s.noNew_quietStrobe
  | drainLimit =>
    simp only [doStrobeWork]
    split
    · exact s.noNew_drainTick
    · exact State.NoNew.refl s
  | occupancy => exact .of_eq rfl rfl rfl

theorem State.noNew_strobeReport (s : State) (order : List StrobeWork) : s.NoNew (s.strobeReport order) := by
  unfold State.strobeReport
  refine State.NoNew.trans ?_ (State.NoNew.foldl doStrobeWork noNew_doStrobeWork _ _)
  exact State.NoNew.foldl (fun t (i : Fin 64) => t.holdoffStrobe i.val) (fun t i => t.noNew_modifyEntry _ _) tableIndices s

/-! ### The work of a sync loss report, and what it leaves -/

theorem State.noNew_busLoss (s : State) : s.NoNew s.busLoss := by
  unfold State.busLoss
  dsimp only
  split
  · exact .of_eq rfl rfl rfl
  · exact .of_eq (by simp) (by simp) (by simp)

theorem noNew_doLossWork (s : State) (w : LossWork) : s.NoNew (doLossWork s w) := by
  cases w with
  | slotPlanner => exact ⟨List.nil_subset _, fun _ h => h, fun _ h => h, fun _ h => h⟩
  | measurement => exact ⟨fun _ h => h, List.nil_subset _, fun _ h => h, fun _ h => h⟩
  | outbound r => exact s.noNew_releaseOut _
  | inbound r => exact s.noNew_missArrival _ _
  | bus => exact s.noNew_busLoss

theorem State.noNew_lossReport (s : State) (loss : List LossWork) : s.NoNew (s.lossReport loss) :=
  State.NoNew.foldl doLossWork noNew_doLossWork _ s

/-- The record of a failed attempt is free. -/
theorem State.failAttempt_frees (s : State) (r : Nat) (reason : Reason) (other : Nat) :
    (s.failAttempt r reason other).outRecord? r = none := by
  unfold State.failAttempt
  split
  · rename_i o ho
    simp [State.outRecord?_setOut, State.outRecord?_lt ho]
  · assumption

theorem State.releaseOut_frees (s : State) (r : Nat) : (s.releaseOut r).outRecord? r = none := by
  unfold State.releaseOut
  split
  · rename_i o ho
    split
    · exact s.failAttempt_frees _ _ _
    · exact s.failAttempt_frees _ _ _
    · exact State.failAttempt_frees _ _ _ _
    · unfold State.loseHandover
      refine (State.noNew_drainTest _).outbound r ?_
      simp [State.outRecord?_setOut, State.outRecord?_lt ho]
    · simp [State.outRecord?_setOut, State.outRecord?_lt ho]
  · assumption

theorem State.missArrival_frees (s : State) (r : Nat) (reason : Reason) : (s.missArrival r reason).inRecord? r = none := by
  unfold State.missArrival
  split
  · rename_i o ho
    split
    · refine (State.noNew_drainTest _).inbound r ?_
      simp [State.inRecord?_setIn, State.inRecord?_lt ho]
    · simp [State.inRecord?_setIn, State.inRecord?_lt ho]
  · assumption

/-- A sync loss report leaves no plan change, no targeted listen and no handover record, in any order. -/
theorem State.lossReport_releases (s : State) (loss : List LossWork) :
    (s.lossReport loss).sp.changes = [] ∧ (s.lossReport loss).mu.listens = []
    ∧ (∀ r, (s.lossReport loss).outRecord? r = none) ∧ ∀ r, (s.lossReport loss).inRecord? r = none := by
  have reach := fun (P : State → Prop) keep (x : LossWork) (hx : x ∈ lossWork) make =>
    foldl_reaches doLossWork P keep x make (scheduled loss lossWork) ((mem_scheduled _ _ x).mpr hx) s
  refine ⟨?_, ?_, ?_, ?_⟩
  · refine reach (fun t => t.sp.changes = []) ?_ .slotPlanner (by decide) (fun _ => rfl)
    intro t w h
    exact List.subset_nil.mp (h ▸ (noNew_doLossWork t w).changes)
  · refine reach (fun t => t.mu.listens = []) ?_ .measurement (by decide) (fun _ => rfl)
    intro t w h
    exact List.subset_nil.mp (h ▸ (noNew_doLossWork t w).listens)
  · intro r
    by_cases g : r < 4
    · refine reach (fun t => t.outRecord? r = none) ?_ (.outbound ⟨r, g⟩) ?_ (fun t => t.releaseOut_frees r)
      · exact fun t w h => (noNew_doLossWork t w).outbound r h
      · simp [lossWork, recordIndices]
    · simp [State.outRecord?, Vector.getElem?_eq_none (Nat.le_of_not_lt g)]
  · intro r
    by_cases g : r < 4
    · refine reach (fun t => t.inRecord? r = none) ?_ (.inbound ⟨r, g⟩) ?_ (fun t => t.missArrival_frees r _)
      · exact fun t w h => (noNew_doLossWork t w).inbound r h
      · simp [lossWork, recordIndices]
    · simp [State.inRecord?, Vector.getElem?_eq_none (Nat.le_of_not_lt g)]

/-! ### Regain and sync loss as wholes -/

theorem State.regain_keeps (s : State) :
    s.KeptByFrames s.regain ∧ s.regain.tb = { s.tb with mark := 0, known := true } := by
  unfold State.regain
  simp [State.KeptByFrames]

theorem State.noNew_regain (s : State) : s.NoNew s.regain := .of_eq rfl rfl rfl

theorem State.syncLoss_keeps (s : State) (reason : Reason) (mark : Mark) (loss : List LossWork) :
    s.KeptByFrames (s.syncLoss reason mark loss)
    ∧ (s.syncLoss reason mark loss).tb = { s.tb with known := false } := by
  have h := State.kept_lossReport ((s.postWithMark .syncLost 0 0 0 reason mark).loseMark) loss
  unfold State.syncLoss
  refine ⟨State.KeptByFrames.trans ?_ h.1, h.2⟩
  unfold State.KeptByFrames
  simp

theorem State.takeEpoch_keeps (s : State) (loss : List LossWork) : s.KeptByFrames (s.takeEpoch loss) := by
  unfold State.takeEpoch
  split
  · exact s.regain_keeps.1
  · split
    · exact ⟨rfl, rfl, rfl, rfl, rfl, rfl, rfl, rfl, rfl, rfl⟩
    · exact (s.syncLoss_keeps _ _ _).1.trans (State.regain_keeps _).1

end Sys2Proof.Machine
end

