-- ==== Sys2Proof/Tests/Slice0.lean ====
section
/-! SUPPORT. Tests: ill-formed commands, worked examples of the spec, and for each obligation a state and operands that meet
its hypotheses. -/
namespace Sys2Proof.Tests
open Sys2Proof.Machine

-- One theorem at a time: side by side, the kernel evaluations take a thread and its stack each.
set_option Elab.async false

/-! ### Small states -/

/-- Handset 5 in a phase. -/
def handset5 (p : Phase) : Entry :=
  { handset := 5, stamp := { epoch := 1, hop := 0 }, phase := p, level := 320, armed := true, holdoff := 0, claimOwed := false }

/-- The bearer cell (7, 3). -/
def cell73 : Cell := { slot := 7, carrier := 3 }

/-- IN_CALL on the cell (7, 3). -/
def talking : Phase := .inCall cell73 3081 Link.fresh

/-- LEAVING the cell (7, 3). -/
def departing : Phase := .leaving cell73 3081 Link.fresh

/-- Station 3 in a station state, with mark 10 and the local frame count 64. -/
def station (st : StationState) : State :=
  { State.reset with
    tb := { mark := 10, known := true, frames := 64, watch := .running }
    sc := { station := st, config := { ConfigRecord.fullReset with stationNumber := 3 }, quiet := none, drain := none } }

/-- A station whose mark is unknown. -/
def unsure (s : State) : State := { s with tb := { s.tb with known := false } }

/-- A station with handset 5 at index 0. -/
def holding (p : Phase) (s : State) : State := s.setEntry 0 (some (handset5 p))

/-- An outbound record of index 0, with seek number 17. -/
def leavingBy (p : OutPhase) : OutRecord := { entry := 0, seek := 17, fire := .collapse, margin := 0, phase := p }

/-- A station that hands the call of index 0 out by record 0. -/
def handingOut (q : Phase) (p : OutPhase) : State :=
  (holding q (station .active)).setOut 0 (some (leavingBy p))

/-- An inbound record of index 0, for the switch mark 10. -/
def arrivingBy (p : InPhase) : InRecord :=
  { entry := 0, handset := 5, source := 9, seek := 17, cell := cell73, switchMark := 10, phase := p }

/-- A station that takes handset 5 in by record 0. -/
def takingIn (p : InPhase) : State :=
  (holding (.arriving cell73 3081) (station .active)).setIn 0 (some (arrivingBy p))

/-- The plan in force asks for a report of a slot. -/
def asking (slot : Nat) (role : PlanRole) (s : State) : State :=
  { s with sp := { s.sp with inForce := s.sp.inForce.setIfInBounds slot { role := role, reported := false } } }

/-- A burst report record, from its fields (12.2). -/
def burstWord (slot carrier : Nat) (sync check : Bool) (level : Nat) (origin : BitVec 2) (present : Bool) (kind : BitVec 3)
    (h : Handset) (argument : BitVec 16) : BurstWord :=
  BitVec.ofNat 4 slot ++ 0#1 ++ BitVec.ofNat 3 carrier ++ BitVec.ofBool sync ++ BitVec.ofBool check ++ BitVec.ofNat 6 level
    ++ origin ++ BitVec.ofBool present ++ 0#2 ++ kind ++ h ++ argument

/-- A good burst of handset 5 on the beacon, with an uplink message. -/
def uplink (kind : BitVec 3) (argument : BitVec 16) : BurstWord := burstWord 0 0 true true 20 1 true kind 5 argument

/-- A burst on the cell (7, 3). -/
def bearerWord (sync : Bool) (kind : BitVec 3) : BurstWord := burstWord 7 3 sync true 20 1 true kind 5 0

/-- A notice of station 9 to station 3 about handset 5. -/
def noticeFrom9 (body : NoticeBody) : Notice :=
  { sender := 9, dest := 3, handset := 5, stamp := { epoch := 1, hop := 1 }, mark := 20, body := body }

/-- A station with one received notice. -/
def receiving (n : Notice) (s : State) : State := { s with bus := { s.bus with rx := [n] } }

/-- A waiting notice. -/
def waiting (n : Notice) : QueuedNotice := { notice := n, inTransmission := false, condemned := false }

/-- A station whose transmit queue holds so many waiting TAKEs. -/
def queueOf (k : Nat) (s : State) : State :=
  { s with bus := { s.bus with queue := List.replicate k (waiting (noticeFrom9 (.take 1 cell73))) } }

/-- A notice in transmission. -/
def onTheBus (n : Notice) (condemned : Bool) : QueuedNotice := { notice := n, inTransmission := true, condemned := condemned }

/-- Station 3 contending with a SEEK. -/
def contending (condemned : Bool) : State :=
  let n : Notice := { sender := 3, dest := 0, handset := 5, stamp := { epoch := 1, hop := 0 }, mark := 20
                      body := .seek 17 cell73 210 }
  { station .active with bus := { Bus.reset with queue := [onTheBus n condemned], tx := .contending n.encode } }

/-- A station that finds every cell quiet. -/
def inQuiet (s : State) : State := { s with mu := { s.mu with map := Vector.replicate 120 160 } }

/-- Handset 5 overheard, at an age. -/
def heard (age : Nat) : Overheard := { handset := 5, level := 480, age := age, cell := cell73 }

/-- A station that has overheard handset 5. -/
def hearing5 (age : Nat) (s : State) : State := { s with mu := { s.mu with overheard := [heard age] } }

/-- A station with eight messages waiting for the beacon. -/
def beaconFull (s : State) : State := { s with sp := { s.sp with beaconQ := List.replicate 8 (.grant 6) } }

/-- A page record of handset 5. -/
def page5 (remaining : Nat) : PageRecord := { handset := 5, tag := 77, remaining := remaining }

/-- A station that pages handset 5. -/
def paging (remaining : Nat) (s : State) : State := { s with cc := { s.cc with pages := [page5 remaining], rotation := some 5 } }

/-- A setup record of index 0. -/
def settingUp (counter : Nat) (s : State) : State :=
  { s with cc := { s.cc with setups := [{ entry := 0, counter := counter, discarded := false }] } }

/-- A find record for handset 5. -/
def find5 (remaining : Nat) (answer : Option FindAnswer) : FindRecord :=
  { handset := 5, number := 4, remaining := remaining, answer := answer }

/-- A targeted listen request for handset 5 on the cell (7, 3). -/
def request5 : ListenRequest :=
  { handset := 5, cell := cell73, seeker := 9, seek := 17, replyBy := 20, stamp := { epoch := 1, hop := 0 } }

/-- A plan change that makes slot 7 HELD at a mark. -/
def hold7 (mark : Mark) : PlanChange := { slot := 7, entry := .held 3 5, mark := mark, requester := .servingSide }

/-- Station 3 holds no handset to begin with. -/
theorem entry?_station (st : StationState) (i : Nat) : (station st).entry? i = none :=
  allFree_replicate (α := Entry) 64 i

/-- A station with nothing done is empty. -/
theorem empty_station (st : StationState) : (station st).EmptyOutOfService where
  table := allFree_replicate 64
  finds := allFree_replicate 4
  setups := rfl
  pages := rfl
  outbound := allFree_replicate 4
  inbound := allFree_replicate 4
  plan := by
    intro slot
    show ((Vector.replicate 16 SlotEntry.free)[slot]?).getD .free = .free
    by_cases h : slot < 16 <;> simp [h]
  changes := rfl
  moves := rfl
  beaconQ := rfl
  listens := rfl

/-- What is read of a next state. -/
def nextOf {α : Type} (o : Host.Outcome State Fault Refusal) (read : State → α) : Option α :=
  match o with
  | .next s => some (read s)
  | .fault _ => none
  | .refused _ => none

/-! ### Ill-formed commands -/

theorem test_undefined_command_of_a_named_code : (Instr.undefinedCommand 13).wellFormed = false := by decide

theorem test_undefined_command_of_code_zero : (Instr.undefinedCommand 0).wellFormed = false := by decide

theorem test_undefined_command_well_formed :
    (Instr.undefinedCommand 14).wellFormed = true ∧ (Instr.undefinedCommand 255).wellFormed = true := by decide

theorem test_incomplete_transaction_of_64 : (Instr.incompleteTransaction 64).wellFormed = false := by decide

theorem test_incomplete_transaction_well_formed :
    (Instr.incompleteTransaction 0).wellFormed = true ∧ (Instr.incompleteTransaction 63).wellFormed = true := by decide

theorem test_ill_formed_commands_stop :
    exec (.undefinedCommand 13) State.reset = .fault .notThisCommand
    ∧ exec (.incompleteTransaction 64) State.reset = .fault .notThisCommand := ⟨rfl, rfl⟩

/-- The table gives no row any bits. -/
theorem test_no_word_is_a_command : decodeTableWord 8 0 = none ∧ decodeTableWord 32 1 = none := ⟨rfl, rfl⟩

/-! ### Worked examples of the spec -/

/-- 3.8: three filter steps with w = 2, and four of 4.2. -/
theorem test_filter_steps :
    filterStep 426 26 2 = 424 ∧ filterStep 424 27 2 = 426
    ∧ filterStep 1008 10 2 = 796 ∧ filterStep 796 10 2 = 637 ∧ filterStep 637 10 2 = 518 ∧ filterStep 362 10 2 = 312 := by
  decide

/-- 2.4: STAGGERED order over carriers 2 to 5 and slots 3 to 6, in frames 1, 2 and 4. -/
theorem test_staggered_order :
    let c := { ConfigRecord.fullReset with scanFirstCarrier := 2, scanLastCarrier := 5, scanFirstSlot := 3, scanLastSlot := 6 }
    [scanCarrier c 2 3, scanCarrier c 2 5, scanCarrier c 2 6] = [2, 4, 5]
    ∧ [scanCarrier c 3 3, scanCarrier c 3 6] = [3, 2]
    ∧ [scanCarrier c 5 3, scanCarrier c 5 5, scanCarrier c 5 6] = [5, 3, 4]
    ∧ nextCursor c 5 = 2 := by decide

/-- 8.15: the candidates of record 0 as the offers of marks 121 to 123 come in. -/
theorem test_candidate_order :
    let l1 := enterCandidate { station := 14, merit := 500, freeSlots := 6 } []
    let l2 := enterCandidate { station := 9, merit := 430, freeSlots := 2 } l1
    let l3 := enterCandidate { station := 21, merit := 180, freeSlots := 9 } l2
    let l4 := enterCandidate { station := 30, merit := 430, freeSlots := 4 } l3
    let l5 := enterCandidate { station := 14, merit := 470, freeSlots := 5 } l4
    l3.map (·.station) = [14, 9, 21] ∧ l4.map (·.station) = [14, 9, 30]
    ∧ l5 = [{ station := 14, merit := 470, freeSlots := 5 }, { station := 9, merit := 430, freeSlots := 2 },
            { station := 30, merit := 430, freeSlots := 4 }] := by decide

/-- R15: 3 is newer than 250, and 250 is older than 3; 128 apart, each is older. -/
theorem test_serial_order :
    serialNewer 3 250 = true ∧ serialOlder 250 3 = true ∧ serialOlder 0 128 = true ∧ serialOlder 128 0 = true := by decide

/-- 3.8: at mark 251, D(6) is 11. -/
theorem test_mark_distance :
    TimeBase.distance? { mark := 251, known := true, frames := 0, watch := .running } 6 = some 11 := by decide

/-- 4.3: a hearing at level 25 of a handset at 350 makes it 363 and moves it to the front. -/
theorem test_recency :
    let s := { station .active with mu := { Measurement.reset with overheard :=
      [{ handset := 301, level := 400, age := 4, cell := cell73 }, { handset := 302, level := 350, age := 6, cell := cell73 }] } }
    ((s.hearing 302 25 { slot := 5, carrier := 2 }).mu.overheard.map fun o => (o.handset, o.level, o.age))
      = [(302, 363, 0), (301, 400, 4)] := by decide +kernel

/-- 6.2: the cells chosen by two selections, and the cursor between them. -/
theorem test_selection :
    let c := { (station .active).sc.config with
      scanFirstCarrier := 1, scanLastCarrier := 3, scanFirstSlot := 2, scanLastSlot := 4 }
    let map := ((((((Measurement.worstMap.setIfInBounds 9 410).setIfInBounds 10 200).setIfInBounds 11 250).setIfInBounds 17
      100).setIfInBounds 25 200).setIfInBounds 26 330).setIfInBounds 27 180
    let s := { (station .active).writeSlot 3 (.bearer 2 6) with
      mu := { Measurement.reset with map := map }
      sc := { (station .active).sc with config := c }
      cc := { CallControl.reset with allocCursor := { slot := 3, carrier := 2 } } }
    let t := (s.moveCursor { slot := 4, carrier := 3 }).writeSlot 4 (.bearer 3 7)
    s.selectCell = some { slot := 4, carrier := 3 } ∧ t.selectCell = some { slot := 2, carrier := 2 } := by decide +kernel

/-- 7.3: a HERE is refused at a PRESSED queue; the twelfth notice makes the queue PRESSED. -/
theorem test_queue_pressure :
    let s := (queueOf 11 (station .active)).offer (noticeFrom9 (.seek 17 cell73 210))
    s.bus.mode = .pressed ∧ s.bus.queue.length = 12
    ∧ (s.offer (noticeFrom9 (.here 4 false))).hl.tallies.enquiriesDropped = 1
    ∧ (s.offer (noticeFrom9 (.here 4 false))).bus.queue.length = 12 := by decide +kernel

/-- 11.4: a CALL LOST at a full queue displaces the oldest level-1 record. -/
theorem test_overflow :
    let attached : EventRecord :=
      { kind := .attached, handset := 1, other := 0, tag := 0, reason := .new, mark := 0, lost := 0 }
    let up : EventRecord := { attached with kind := .callUp }
    let down : EventRecord := { attached with kind := .callLost }
    let h := { HostLink.reset with events := [up, attached] ++ List.replicate 30 up }
    (h.post attached).events = h.events ∧ (h.post attached).lost = 1
    ∧ (h.post down).events = List.replicate 31 up ++ [down] := by decide +kernel

/-- 5.2: an ATTACH from a handset that is not held is answered, claimed and told to the host. -/
theorem test_attach :
    nextOf (exec (.attach (uplink 1 (40#8 ++ 3#8))) (asking 0 (.beacon 0) ((station .active).writeSlot 0 .beacon)))
        (fun u => ((u.entry? 0).map (·.stamp), u.sp.beaconQ, u.bus.queue.length, u.hl.events.map (·.kind)))
      = some (some { epoch := 40, hop := 0 }, [.grant 5], 1, [.attached]) := by decide +kernel

/-- 12.1: the words of two notices, written out field by field, are read as what they stand for. -/
theorem test_notice_words :
    (noticeFrom9 (.claim true)).head = 0x3243000005010114#96 <<< 32 ||| 0x80000000#96
    ∧ Notice.decode (0x3243000005010114#64 ++ 0x80000000#32 ++ 0#16) = some (noticeFrom9 (.claim true))
    ∧ Notice.decode (0x6243000005010114#64 ++ 0x11766900#32 ++ 0#16)
        = some (noticeFrom9 (.seek 17 cell73 210)) := by decide +kernel


/-- R171: a regain that finds a LISTENING station with its counter at 0 makes it ACTIVE; the order of the strobe's work says
whether the beacon is in the plan of this strobe or of the next (log 2). -/
theorem test_regain_with_the_quiet_period_over :
    let s := unsure ((station .listening).setQuiet (some 0))
    nextOf (exec (.epochStrobe [] [.quietPeriod, .slotPlanner]) s)
        (fun u => (u.sc.station, u.slotEntry 0, (u.planned 0).role, u.hl.events.map (·.kind)))
      = some (.active, .beacon, .beacon 0, [.syncRegained, .joined])
    ∧ nextOf (exec (.epochStrobe [] [.slotPlanner, .quietPeriod]) s)
        (fun u => (u.sc.station, u.slotEntry 0, (u.planned 0).role, u.hl.events.map (·.kind)))
      = some (.active, .beacon, .idle, [.syncRegained, .joined]) := by decide +kernel

/-- R6: a realignment with a call in ASKING: SYNC LOST, HANDOVER FAILED, SYNC REGAINED. -/
theorem test_realignment :
    nextOf (exec (.epochStrobe [] []) (handingOut talking (.asking [] 9 22 4)))
        (fun u => (u.tb.mark, u.he.outbound[0]?, u.hl.events.map fun e => (e.kind, e.reason, e.mark)))
      = some (0, some none, [(.syncLost, .realigned, 11), (.handoverFailed, .noSync, 10), (.syncRegained, .none, 0)]) := by
  decide +kernel

/-- R33: the MOVE of a SWITCHING record is withdrawn at its switch mark. -/
theorem test_switch_mark_withdraws_the_move :
    let m : Move := { slot := 7, handset := 5, target := 9, newCell := cell73, switchMark := 10 }
    let s := (handingOut departing (.switching 9 10 cell73)).setMove m
    s.sp.moves = [m] ∧ nextOf (exec (.switchMarkDueOutbound 0) s) (·.sp.moves) = some [] := by decide +kernel

/-- 12.3: what the bytes of a transaction spell; the argument bytes that PAGE and READ STATUS do not use are ignored, and so
are bytes beyond the 64th. -/
theorem test_command_records :
    commandOfBytes ([5, 0, 0, 5, 0, 77, 9] ++ List.replicate 57 255) = .page 5 77
    ∧ commandOfBytes (10 :: List.replicate 80 255) = .readStatus
    ∧ commandOfBytes (13 :: List.replicate 62 0) = .incompleteTransaction 63
    ∧ commandOfBytes (14 :: List.replicate 63 0) = .undefinedCommand 14 := by decide +kernel

/-- 12.3: byte 1 of a CONFIGURE command record is the station number, byte 35 the drain limit. -/
theorem test_configure_record :
    commandOfBytes ([1, 3] ++ List.replicate 33 0 ++ [9] ++ List.replicate 28 0)
      = .configure (3#8 ++ 0#264 ++ 9#8)
    ∧ (configOfWord (3#8 ++ 0#264 ++ 9#8)).stationNumber = 3 ∧ (configOfWord (3#8 ++ 0#264 ++ 9#8)).drainLimit = 9 := by
  decide +kernel

/-- 12.3: the first bytes of the answer to READ STATUS from station 3, ACTIVE, at mark 10 and frame 64. -/
theorem test_status_record :
    nextOf (exec .readStatus (station .active)) (fun u => u.hl.response.record.take 10)
      = some [10, 1, 0, 3, 128, 10, 0, 0, 0, 64] := by decide +kernel

/-! ### A state and operands for the hypotheses of each statement, clause by clause -/

theorem witness_StepRunsTheFrontCommand : State.reset.pending = [] := rfl

theorem witness_StrobesMoveTheMark : State.reset.tb.known = false ∧ (unsure (station .active)).tb.known = false := by decide

theorem witness_EpochStrobeInStepIsOrdinary :
    let s := { station .active with tb := { mark := 255, known := true, frames := 0, watch := .running } }
    s.tb.known = true ∧ s.tb.mark = 255 := by decide

theorem witness_RealignmentReleasesAndRegains :
    (station .active).tb.known = true ∧ (station .active).tb.mark ≠ 255 := by decide

theorem witness_OverdueStrobeLosesTheMark :
    ((station .active).tb.watch = .running ∧ (station .active).tb.known = true)
    ∧ ((unsure (station .active)).tb.watch = .running ∧ (unsure (station .active)).tb.known = false) := by decide

theorem witness_OverdueStrobeLosesTheMark_nothing_held :
    let s := { station .active with bus := { Bus.reset with queue := [waiting (noticeFrom9 (.claim true))] } }
    s.tb.watch = .running ∧ s.tb.known = true ∧ s.sp.changes = [] ∧ s.mu.listens = []
    ∧ allFree s.he.outbound ∧ allFree s.he.inbound ∧ ∀ q ∈ s.bus.queue, q.notice.bindsMark = false :=
  ⟨rfl, rfl, rfl, rfl, allFree_replicate 4, allFree_replicate 4, by decide⟩

theorem witness_OverdueStrobeLosesTheMark_works : lossWork.Nodup ∧ ∀ w, w ∈ lossWork :=
  ⟨nodup_lossWork, mem_lossWork⟩

theorem witness_OverdueStrobeLosesTheMark_records :
    (station .active).outRecord? 3 = none ∧ (station .active).inRecord? 3 = none
    ∧ (let s := handingOut talking (.seeking 10 [])
       s.outRecord? 0 = some (leavingBy (.seeking 10 [])) ∧ s.entry? 0 = some (handset5 talking))
    ∧ (let s := handingOut talking (.asking [] 9 22 4)
       s.outRecord? 0 = some (leavingBy (.asking [] 9 22 4)) ∧ s.entry? 0 = some (handset5 talking))
    ∧ (let s := handingOut departing (.switching 9 22 cell73)
       s.outRecord? 0 = some (leavingBy (.switching 9 22 cell73)) ∧ s.entry? 0 = some (handset5 departing))
    ∧ (let s := handingOut departing (.fallback 9 22 cell73 4)
       s.outRecord? 0 = some (leavingBy (.fallback 9 22 cell73 4)) ∧ s.entry? 0 = some (handset5 departing))
    ∧ (takingIn .reserved).inRecord? 0 = some (arrivingBy .reserved)
    ∧ (takingIn .reserved).entry? 0 = some (handset5 (.arriving cell73 3081)) := by decide +kernel

theorem witness_OverdueStrobeLosesTheMark_queue :
    (∀ q ∈ (station .active).bus.queue, q.notice.bindsMark = true → q.inTransmission = true)
    ∧ ∃ q ∈ (queueOf 1 (station .active)).bus.queue, q.notice.bindsMark = true ∧ q.inTransmission = false := by
  decide +kernel

theorem witness_FramesKeepWhatTheyDoNotOwn :
    (∃ t, exec (.ordinaryStrobe []) (station .active) = .next t)
    ∧ (∃ t, exec (.epochStrobe [] []) (station .active) = .next t)
    ∧ (∃ t, exec (.strobeOverdue []) (station .active) = .next t) := ⟨⟨_, rfl⟩, ⟨_, rfl⟩, ⟨_, rfl⟩⟩

theorem witness_SerialAndStampOrder :
    serialNewer 1 0 = true ∧ serialNewer 127 0 = true ∧ serialOlder 128 0 = true ∧ serialOlder 255 0 = true := by decide

theorem witness_MarkDistance :
    (station .active).tb.known = true ∧ (unsure (station .active)).tb.known = false ∧ 0 < 256 ∧ 255 < 256 := by decide

theorem witness_SharedOperationsDoWhatTheyName_finds :
    (holding talking (station .active)).find? 5 = some (0, handset5 talking) ∧ (station .active).find? 5 = none
    ∧ (station .active).isHeld 5 = false ∧ (63 < 64 ∧ 3 < 4 ∧ 15 < 16)
    ∧ (let s := handingOut talking (.asking [] 9 22 4)
       s.outOf 0 = some 0 ∧ s.outOf 1 = none ∧ s.outRecord? 0 = some (leavingBy (.asking [] 9 22 4))
       ∧ s.outFor? 5 17 = some (0, leavingBy (.asking [] 9 22 4)) ∧ s.outFor? 5 18 = none)
    ∧ (let s := takingIn .reserved
       s.inOf 0 = some 0 ∧ s.inOf 1 = none)
    ∧ (let s := (station .active).setFind 3 (some (find5 6 none))
       s.findFor 5 = some 3 ∧ s.findFor 6 = none)
    ∧ ((paging 9 (station .active)).page? 5 = some (page5 9) ∧ (station .active).page? 5 = none)
    ∧ ((hearing5 0 (station .active)).overheard? 5 = some (heard 0) ∧ (station .active).overheard? 5 = none)
    ∧ (settingUp 3 (station .active)).setup? 0 = some { entry := 0, counter := 3, discarded := false }
    ∧ (station .active).setup? 0 = none := by decide +kernel

theorem witness_SharedOperationsDoWhatTheyName_fresh :
    (hearing5 8 (station .active)).fresh 5 = true ∧ (hearing5 9 (station .active)).fresh 5 = false
    ∧ (station .active).fresh 5 = false := by decide +kernel

theorem witness_SharedOperationsDoWhatTheyName_free :
    (holding talking (station .active)).freeIndex = some 1 ∧ (handingOut talking (.asking [] 9 22 4)).freeOut = some 1
    ∧ (takingIn .reserved).freeIn = some 1 ∧ ((station .active).setFind 0 (some (find5 6 none))).freeFind = some 1
    ∧ (station .active).entry? 0 = none ∧ (holding talking (station .active)).entry? 0 = some (handset5 talking)
    ∧ (handset5 talking).cell? = some cell73 ∧ (handset5 (.idle 0)).cell? = none := by decide +kernel

theorem witness_FilterStepNeverOvershoots :
    (0 ≤ 1008 ∧ 63 ≤ 63 ∧ 1 ≤ 1 ∧ 1 ≤ 4 ∧ 0 ≤ 16 * 63) ∧ (1008 ≤ 1008 ∧ 0 ≤ 63 ∧ 1 ≤ 4 ∧ 4 ≤ 4 ∧ 16 * 0 ≤ 1008)
    ∧ (holding talking (station .active)).entry? 0 = some (handset5 talking)
    ∧ (hearing5 0 (station .active)).overheard? 5 = some (heard 0) := by decide +kernel

theorem witness_MeritsAndOutcomes :
    let r : Ring := { fails := Vector.replicate 8 true, position := 7 }
    r.position < 8 ∧ 0 ≠ r.position ∧ Ring.fresh.position < 8 := by decide

theorem witness_MeritsAndOutcomes_links :
    (handset5 (.setup cell73 77 Link.fresh)).phase = .setup cell73 77 Link.fresh
    ∧ (handset5 talking).link? = some Link.fresh ∧ (handset5 departing).link? = some Link.fresh
    ∧ (handset5 (.idle 0)).link? = none ∧ (handset5 (.arriving cell73 77)).link? = none := by decide

theorem witness_DirectWritesOfTheSlotPlan_commit :
    (¬(1 ≤ 0 ∧ 0 ≤ 15) ∧ ¬(1 ≤ 16 ∧ 16 ≤ 15))
    ∧ (station .configured).serving = false
    ∧ ((station .active).serving = true ∧ ((station .active).writeSlot 15 (.held 3 5)).slotEntry 15 ≠ .free)
    ∧ (let s := (station .draining).admitChange { hold7 12 with slot := 1 }
       s.serving = true ∧ s.slotEntry 1 = .free ∧ ∃ c ∈ s.sp.changes, c.slot = 1)
    ∧ (let s := (station .active).admitChange (hold7 12)
       s.serving = true ∧ s.slotEntry 15 = .free ∧ ∀ c ∈ s.sp.changes, c.slot ≠ 15)
    ∧ (station .active).commitRefusal? 0 ≠ none := by decide +kernel

theorem witness_DirectWritesOfTheSlotPlan_restore :
    ((station .active).writeSlot 15 (.held 3 5)).slotEntry 15 = .held 3 5
    ∧ ∀ c, ((station .active).writeSlot 15 (.bearer 3 5)).slotEntry 15 ≠ .held c 5 := by
  have h : ((station .active).writeSlot 15 (.bearer 3 5)).slotEntry 15 = .bearer 3 5 := by decide +kernel
  exact ⟨by decide +kernel, fun c => by rw [h]; simp⟩

theorem witness_PlanChangesAreAdmittedAndApplied :
    let s := ((station .active).writeSlot 7 (.bearer 3 5)).admitChange (hold7 10)
    (∀ c ∈ s.sp.changes, s.tb.due c.mark = true → c.slot ≠ 8)
    ∧ hold7 10 ∈ s.sp.changes ∧ s.tb.due (hold7 10).mark = true ∧ (hold7 10).slot < 16
    ∧ ∀ d ∈ s.sp.changes, s.tb.due d.mark = true → d.slot = (hold7 10).slot → d.entry = (hold7 10).entry := by
  decide +kernel

theorem witness_PlanChangesAreAdmittedAndApplied_refusals :
    let bearing := (station .active).writeSlot 7 (.bearer 3 5)
    let full := { bearing with sp := { bearing.sp with changes := List.replicate 8 { hold7 12 with slot := 8 } } }
    (¬(1 ≤ 0 ∧ 0 ≤ 15) ∧ ¬(1 ≤ 16 ∧ 16 ≤ 15))
    ∧ ((unsure bearing).tb.known = false ∧ 1 ≤ (hold7 12).slot ∧ (hold7 12).slot ≤ 15)
    ∧ (bearing.tb.known = true ∧ bearing.tb.within 10 1 128 = false ∧ bearing.tb.within 139 1 128 = false)
    ∧ (bearing.tb.within 11 1 128 = true ∧ bearing.tb.within 138 1 128 = true)
    ∧ ((station .active).slotEntry 7).owner? = none
    ∧ ((bearing.slotEntry 7).owner? = some 5 ∧ (SlotEntry.held 3 6).owner? ≠ some 5)
    ∧ ((bearing.slotEntry (hold7 12).slot).owner? = some 5 ∧ (hold7 12).entry.owner? = some 5
      ∧ bearing.sp.changes.length < 8)
    ∧ ((∀ d ∈ full.sp.changes, ¬(d.slot = (hold7 12).slot ∧ d.mark = (hold7 12).mark)) ∧ 8 ≤ full.sp.changes.length)
    ∧ ∃ d ∈ full.sp.changes, d.slot = 8 ∧ d.mark = 12 := by decide +kernel

theorem witness_PlanChangesAreAdmittedAndApplied_places :
    let bearing := (station .active).writeSlot 7 (.bearer 3 5)
    let s := (bearing.admitChange (hold7 12)).admitChange (hold7 20)
    s.sp.changes = [hold7 12] ++ hold7 20 :: []
    ∧ (∀ x ∈ [hold7 12] ++ [], ¬(x.slot = (hold7 20).slot ∧ x.mark = (hold7 20).mark))
    ∧ (∀ d ∈ s.sp.changes, ¬(d.slot = (hold7 30).slot ∧ d.mark = (hold7 30).mark))
    ∧ bearing.changeRefusal? (hold7 12) = none ∧ bearing.changeRefusal? (hold7 10) ≠ none := by decide +kernel

theorem witness_FramePlanFollowsTheSlotPlan :
    let s := { station .active with mu := { Measurement.reset with listens := [request5] } }
    let c := { (station .active).sc.config with scanFirstSlot := 2, scanLastSlot := 14 }
    let t := { s with sc := { s.sc with config := c } }
    s.mu.listens.find? (fun q => q.cell.slot == 7) = some request5
    ∧ (t.mu.listens.find? (fun q => q.cell.slot == 14) = none ∧ t.joined = true ∧ t.sc.config.scanFirstSlot ≤ 14
        ∧ 14 ≤ t.sc.config.scanLastSlot)
    ∧ (t.mu.listens.find? (fun q => q.cell.slot == 15) = none ∧ t.sc.config.scanLastSlot < 15)
    ∧ (t.mu.listens.find? (fun q => q.cell.slot == 1) = none ∧ 1 < t.sc.config.scanFirstSlot)
    ∧ ((station .configured).mu.listens.find? (fun q => q.cell.slot == 1) = none
        ∧ (station .configured).joined = false) := by decide +kernel

theorem witness_FramePlanFollowsTheSlotPlan_messages :
    let m : Move := { slot := 7, handset := 5, target := 9, newCell := cell73, switchMark := 22 }
    let s := ((station .active).writeSlot 7 (.bearer 3 5)).setMove m
    let full := { station .active with
      rc := { Registration.reset with table := Vector.replicate 64 (some (handset5 (.idle 0))) } }
    s.moveFor 7 = some m ∧ (s.writeSlot 7 (.held 3 5)).moveFor 7 = none
    ∧ ConfigRecord.fullReset.scanOrder = .staggered
    ∧ ({ ConfigRecord.fullReset with scanOrder := .aligned } : ConfigRecord).scanOrder = .aligned
    ∧ ConfigRecord.fullReset.scanFirstCarrier ≤ ConfigRecord.fullReset.scanLastCarrier
    ∧ (station .draining).sc.station = .draining
    ∧ ((station .active).sc.station ≠ .draining ∧ (station .active).entry? 63 = none)
    ∧ ∀ i, i < 64 → full.entry? i ≠ none := by decide +kernel

theorem witness_FramePlanFollowsTheSlotPlan_pages :
    (∀ x ∈ [{ page5 9 with handset := 6 }], x.handset ≠ (page5 9).handset)
    ∧ ∀ x ∈ [{ page5 9 with handset := 6 }], x.handset ≠ 5 := by decide

theorem witness_ListsAndHoldoffsExpire :
    ((hearing5 99 (station .active)).overheard? 5 = some (heard 99)
      ∧ (station .active).sc.config.overheardLife ≤ (heard 99).age + 1)
    ∧ ((station .active).tb.known = true ∧ (unsure (station .active)).tb.known = false)
    ∧ (let e := { handset5 talking with holdoff := 1, level := 383 }
       let s := (station .active).setEntry 63 (some e)
       s.entry? 63 = some e ∧ e.isInCall = true ∧ e.merit s.sc.config < s.sc.config.triggerThreshold)
    ∧ (let e := { handset5 talking with holdoff := 1, level := 384 }
       let s := (station .active).setEntry 0 (some e)
       s.entry? 0 = some e ∧ ¬(e.isInCall = true ∧ e.merit s.sc.config < s.sc.config.triggerThreshold)) := by decide +kernel

theorem witness_IdlePageAndSetupExpiry :
    (let s := holding (.idle 46) (station .active)
     s.entry? 0 = some (handset5 (.idle 46)) ∧ s.sc.config.idleExpiry ≤ 46 + 1)
    ∧ ((paging 1 (station .active)).page? 5 = some (page5 1) ∧ (page5 1).remaining ≤ 1)
    ∧ (let s := settingUp 1 (holding (.setup cell73 77 Link.fresh) (station .active))
       s.setup? 0 = some { entry := 0, counter := 1, discarded := false }
       ∧ s.entry? 0 = some (handset5 (.setup cell73 77 Link.fresh))) := by decide +kernel

theorem witness_IdlePageAndSetupExpiry_pages :
    (∀ p ∈ (station .active).cc.pages, p.handset ≠ 5)
    ∧ ((paging 9 (station .active)).cc.pages = [] ++ page5 9 :: [] ∧ (∀ q ∈ ([] : List PageRecord), q.handset ≠ 5)
      ∧ (page5 9).handset = 5 ∧ (paging 9 (station .active)).cc.rotation = some 5) := by decide +kernel

theorem witness_ListsAndHoldoffsExpire_not_yet :
    (∀ o, (hearing5 98 (station .active)).overheard? 5 = some o → o.age + 1 < (station .active).sc.config.overheardLife)
    ∧ ∀ e, ((station .active).setEntry 0 (some { handset5 talking with holdoff := 2 })).entry? 0 = some e → e.holdoff ≠ 1 := by
  refine ⟨fun o h => ?_, fun e h => ?_⟩
  · cases (show (hearing5 98 (station .active)).overheard? 5 = some (heard 98) by decide +kernel).symm.trans h
    decide
  · cases (State.entry?_setEntry_self (station .active) 0 _ (by decide)).symm.trans h
    decide

theorem witness_IdlePageAndSetupExpiry_not_yet :
    (∀ e n, (holding (.idle 45) (station .active)).entry? 0 = some e → e.phase = .idle n →
      n + 1 < (station .active).sc.config.idleExpiry)
    ∧ (∀ r, (settingUp 2 (station .active)).setup? 0 = some r → 2 ≤ r.counter)
    ∧ (∀ p, (paging 2 (station .active)).page? 5 = some p → 2 ≤ p.remaining)
    ∧ ∀ f, ((station .active).setFind 3 (some (find5 2 none))).findRecord? 3 = some f → 2 ≤ f.remaining := by
  refine ⟨fun e n h p => ?_, fun r h => ?_, fun p h => ?_, fun f h => ?_⟩
  · cases (State.entry?_setEntry_self (station .active) 0 _ (by decide)).symm.trans h
    cases p
    decide
  · cases h
    decide
  · cases h
    decide
  · cases (show ((station .active).setFind 3 (some (find5 2 none))).findRecord? 3 = some (find5 2 none) by
      decide +kernel).symm.trans h
    decide

theorem witness_StrobeDoesTheWorkOfItsRows_order :
    let t := (station .active).holdoffsStrobe
    t.strobeWork.reverse.Nodup ∧ (∀ w, w ∈ t.strobeWork.reverse ↔ w ∈ t.strobeWork)
    ∧ ((paging 9 (station .active)).cc.pages.map (·.handset)).Nodup :=
  ⟨by decide +kernel, fun _ => List.mem_reverse, by decide +kernel⟩

theorem witness_StrobeDoesTheWorkOfItsRows_entries :
    (let s := holding (.idle 46) (station .active)
     s.entry? 0 = some (handset5 (.idle 46)) ∧ (handset5 (.idle 46)).holdoff ≠ 1
     ∧ s.tb.frames.toNat % 64 = 0 ∧ s.sc.config.idleExpiry ≤ 46 + 1
     ∧ (s.advanceMark.countFrame).tb.frames.toNat % 64 ≠ 0)
    ∧ (let s := holding (.idle 45) (station .active)
       s.entry? 0 = some (handset5 (.idle 45)) ∧ s.tb.frames.toNat % 64 = 0 ∧ 45 + 1 < s.sc.config.idleExpiry)
    ∧ (let e := { handset5 talking with holdoff := 1 }
       ((station .active).setEntry 0 (some e)).entry? 0 = some e ∧ e.holdoff = 1)
    ∧ ((settingUp 2 (station .active)).setup? 0 = some { entry := 0, counter := 2, discarded := false })
    ∧ ((settingUp 1 (station .active)).setup? 0 = some { entry := 0, counter := 1, discarded := false })
    ∧ ((paging 2 (station .active)).page? 5 = some (page5 2) ∧ 2 ≤ (page5 2).remaining)
    ∧ ((paging 1 (station .active)).page? 5 = some (page5 1) ∧ (page5 1).remaining ≤ 1) := by decide +kernel

theorem witness_StrobeDoesTheWorkOfItsRows_records :
    ((station .active).setFind 3 (some (find5 2 none))).findRecord? 3 = some (find5 2 none)
    ∧ ((station .active).setFind 3 (some (find5 1 none))).findRecord? 3 = some (find5 1 none)
    ∧ (handingOut talking (.seeking 10 [])).outRecord? 0 = some (leavingBy (.seeking 10 []))
    ∧ (handingOut departing (.switching 9 10 cell73)).outRecord? 0 = some (leavingBy (.switching 9 10 cell73))
    ∧ (handingOut talking (.asking [] 9 22 2)).outRecord? 0 = some (leavingBy (.asking [] 9 22 2))
    ∧ (handingOut talking (.asking [] 9 22 1)).outRecord? 0 = some (leavingBy (.asking [] 9 22 1))
    ∧ (handingOut departing (.fallback 9 10 cell73 2)).outRecord? 0 = some (leavingBy (.fallback 9 10 cell73 2))
    ∧ (handingOut departing (.fallback 9 10 cell73 1)).outRecord? 0 = some (leavingBy (.fallback 9 10 cell73 1))
    ∧ (takingIn .reserved).inRecord? 0 = some (arrivingBy .reserved)
    ∧ (takingIn (.awaiting 2)).inRecord? 0 = some (arrivingBy (.awaiting 2))
    ∧ (takingIn (.awaiting 1)).inRecord? 0 = some (arrivingBy (.awaiting 1)) := by decide +kernel

theorem witness_StrobeDoesTheWorkOfItsRows_counters :
    (let s := (station .listening).setQuiet (some 2)
     s.sc.station = .listening ∧ s.sc.quiet = some 2)
    ∧ (let s := (station .listening).setQuiet (some 1)
       s.sc.station = .listening ∧ s.sc.quiet = some 1)
    ∧ (let s := (station .draining).setDrain (some 2)
       s.sc.station = .draining ∧ s.sc.drain = some 2 ∧ s.tb.frames.toNat % 64 = 0)
    ∧ (let s := (station .draining).setDrain (some 1)
       s.sc.station = .draining ∧ s.sc.drain = some 1 ∧ s.tb.frames.toNat % 64 = 0) := by decide +kernel

theorem witness_StrobeDoesTheWorkOfItsRows_nothing_to_do :
    (∀ e, (holding talking (station .active)).entry? 0 = some e → e.engaged = true)
    ∧ (station .active).setup? 0 = none ∧ (station .active).findRecord? 3 = none
    ∧ (station .active).outRecord? 3 = none ∧ (station .active).inRecord? 3 = none
    ∧ (station .active).sc.station ≠ .listening ∧ (station .active).sc.station ≠ .draining
    ∧ (station .draining).advanceMark.countFrame.tb.frames.toNat % 64 ≠ 0
    ∧ (let s := (station .listening).setQuiet (some 0)
       s.sc.station = .listening ∧ s.sc.quiet = some 0 ∧ s.tb.known = true ∧ (unsure s).tb.known = false) := by
  refine ⟨fun e h => ?_, by decide +kernel⟩
  rw [show (holding talking (station .active)).entry? 0 = some (handset5 talking) by decide +kernel] at h
  cases h
  rfl

theorem witness_IdlePageAndSetupExpiry_finds :
    (let s := (holding (.idle 0) (station .active)).setFind 0 (some (find5 1 none))
     s.findRecord? 0 = some (find5 1 none) ∧ s.find? 5 = some (0, handset5 (.idle 0)))
    ∧ (let a : FindAnswer := { station := 9, stamp := { epoch := 1, hop := 0 }, inCall := true }
       let s := (station .active).setFind 3 (some (find5 1 (some a)))
       s.findRecord? 3 = some (find5 1 (some a)) ∧ s.find? 5 = none)
    ∧ (let s := (station .active).setFind 3 (some (find5 1 none))
       s.findRecord? 3 = some (find5 1 none) ∧ s.find? 5 = none) := by decide +kernel

/-- A candidate. -/
def candidate14 : Candidate := { station := 14, merit := 470, freeSlots := 5 }

theorem witness_CandidatesAreAskedInOrder :
    let s := handingOut talking (.seeking 10 [candidate14])
    let o := leavingBy (.seeking 10 [candidate14])
    s.outRecord? 0 = some o ∧ s.entry? o.entry = some (handset5 talking)
    ∧ (∀ d ∈ ([] : List Candidate), s.admits (s.transferNotice o (handset5 talking) d) = false)
    ∧ s.admits (s.transferNotice o (handset5 talking) candidate14) = true
    ∧ ∀ d ∈ [candidate14] ++ [candidate14],
        (queueOf 14 s).admits ((queueOf 14 s).transferNotice o (handset5 talking) d) = false := by decide +kernel

theorem witness_HandoverDeadlinesFallDue_replies :
    (let s := handingOut talking (.seeking 10 [candidate14])
     s.outRecord? 0 = some (leavingBy (.seeking 10 [candidate14])) ∧ s.tb.known = true ∧ (10 : Mark) = s.tb.mark
     ∧ s.entry? 0 = some (handset5 talking))
    ∧ (let s := handingOut talking (.asking [candidate14] 14 22 1)
       s.outRecord? 0 = some (leavingBy (.asking [candidate14] 14 22 1)) ∧ s.entry? 0 = some (handset5 talking)) := by
  decide +kernel

theorem witness_HandoverDeadlinesFallDue_switches :
    (let s := handingOut departing (.switching 9 10 cell73)
     s.outRecord? 0 = some (leavingBy (.switching 9 10 cell73)) ∧ s.tb.known = true ∧ (10 : Mark) = s.tb.mark
     ∧ s.entry? 0 = some (handset5 departing) ∧ (handset5 departing).cell? = some cell73)
    ∧ ((handset5 (.idle 0)).cell? = none ∧ (handingOut (.idle 0) (.switching 9 10 cell73)).entry? 0 = some (handset5 (.idle 0)))
    ∧ (let s := takingIn .reserved
       s.inRecord? 0 = some (arrivingBy .reserved) ∧ s.tb.known = true ∧ (arrivingBy .reserved).switchMark = s.tb.mark) := by
  decide +kernel

theorem witness_HandoverDeadlinesFallDue_windows :
    (let s := handingOut departing (.fallback 9 10 cell73 1)
     s.outRecord? 0 = some (leavingBy (.fallback 9 10 cell73 1)) ∧ s.entry? 0 = some (handset5 departing))
    ∧ (let s := takingIn (.awaiting 1)
       s.inRecord? 0 = some (arrivingBy (.awaiting 1)) ∧ s.entry? 0 = some (handset5 (.arriving cell73 3081))) := by
  decide +kernel

/-- The outbound record of a station that hands handset 5 out. -/
theorem outRecord?_handingOut (q : Phase) (p : OutPhase) : (handingOut q p).outRecord? 0 = some (leavingBy p) := rfl

/-- The inbound record of a station that takes handset 5 in. -/
theorem inRecord?_takingIn (p : InPhase) : (takingIn p).inRecord? 0 = some (arrivingBy p) := rfl

theorem witness_HandoverDeadlinesFallDue_not_yet :
    (∀ o m l, (handingOut talking (.seeking 11 [])).outRecord? 0 = some o → o.phase = .seeking m l →
      (station .active).tb.due m = false)
    ∧ (∀ o l t m n, (handingOut talking (.asking [] 9 22 2)).outRecord? 0 = some o → o.phase = .asking l t m n → 2 ≤ n)
    ∧ (∀ o t m c, (handingOut departing (.switching 9 11 cell73)).outRecord? 0 = some o → o.phase = .switching t m c →
      (station .active).tb.due m = false)
    ∧ (∀ o t m c n, (handingOut departing (.fallback 9 10 cell73 2)).outRecord? 0 = some o → o.phase = .fallback t m c n →
      2 ≤ n) := by
  refine ⟨?_, ?_, ?_, ?_⟩ <;> intros <;> rename_i h p <;> cases (outRecord?_handingOut _ _).symm.trans h <;> cases p <;> decide

theorem witness_HandoverDeadlinesFallDue_not_yet_inbound :
    (∀ o, (unsure (takingIn .reserved)).inRecord? 0 = some o → o.phase = .reserved →
      (unsure (takingIn .reserved)).tb.due o.switchMark = false)
    ∧ ∀ o n, (takingIn (.awaiting 2)).inRecord? 0 = some o → o.phase = .awaiting n → 2 ≤ n := by
  refine ⟨?_, ?_⟩
  · intro o h _
    cases (inRecord?_takingIn .reserved).symm.trans h
    decide
  · intro o n h p
    cases (inRecord?_takingIn (.awaiting 2)).symm.trans h
    cases p
    decide

theorem witness_DrainLimitCompletesTheDrain_discards :
    (station .active).bus.tx = .waiting
    ∧ (∃ w, (contending false).bus.tx = .contending w)
    ∧ ({ (contending false).bus with tx := .sending 0 } : Bus).tx = .sending 0 := ⟨rfl, ⟨_, rfl⟩, rfl⟩

/-- R112, R126, log 9: a notice in SENDING outlives the discard of the queue, one in CONTENDING does not. -/
theorem test_discard_keeps_only_sending :
    let n := noticeFrom9 (.claim true)
    let b : Bus := { (contending false).bus with idle := 5, yieldCount := 2, mode := .pressed, rx := [n] }
    let b := { b with queue := b.queue ++ [waiting n] }
    let c := { b with tx := .sending 7 }
    (b.clear.queue = [] ∧ b.clear.tx = .waiting ∧ b.clear.idle = 5)
    ∧ c.clear = { c with queue := (contending false).bus.queue, yieldCount := 0, mode := .opened, rx := [] } := by decide +kernel

theorem witness_QuietPeriodMakesTheStationActive :
    let s := (station .listening).setQuiet (some 1)
    (s.sc.station = .listening ∧ s.sc.quiet = some 1 ∧ s.tb.known = true)
    ∧ ((unsure s).sc.station = .listening ∧ (unsure s).sc.quiet = some 1 ∧ (unsure s).tb.known = false) := by decide

theorem witness_QuietPeriodMakesTheStationActive_regain :
    let s := (station .listening).setQuiet (some 0)
    (s.sc.station = .listening ∧ s.sc.quiet = some 0 ∧ s.tb.mark ≠ 255) ∧ (unsure s).tb.known = false := by decide

theorem witness_QuietPeriodMakesTheStationActive_not_yet :
    ((station .listening).setQuiet (some 2)).sc.quiet ≠ some 1 ∧ ((station .active).setQuiet (some 1)).sc.station ≠ .listening
    ∧ ((station .draining).setDrain (some 2)).sc.drain ≠ some 1 ∧ (station .active).sc.station ≠ .draining := by decide

theorem witness_DrainLimitCompletesTheDrain_losses :
    (let s := handingOut departing (.fallback 9 10 cell73 1)
     s.entry? 0 = some (handset5 departing) ∧ (handset5 departing).isLeaving = true ∧ s.outOf 0 = some 0
     ∧ s.outRecord? 0 = some (leavingBy (.fallback 9 10 cell73 1))
     ∧ (leavingBy (.fallback 9 10 cell73 1)).phase.target? = some 9)
    ∧ ((takingIn .reserved).inOf 0 = some 0 ∧ (takingIn .reserved).inRecord? 0 = some (arrivingBy .reserved)
      ∧ (handset5 (.arriving cell73 3081)).isArriving = true)
    ∧ (handset5 talking).isInCall = true ∧ (handset5 (.setup cell73 77 Link.fresh)).isSetup = true
    ∧ (handset5 (.idle 0)).engaged = false := by decide +kernel

theorem witness_DrainLimitCompletesTheDrain :
    let s := (station .draining).setDrain (some 1)
    (s.sc.station = .draining ∧ s.sc.drain = some 1)
    ∧ (s.sc.station = .draining ∧ ∀ i e, s.entry? i = some e → e.engaged = false)
    ∧ (holding talking s).entry? 0 = some (handset5 talking) ∧ (handset5 talking).engaged = true
    ∧ (station .active).sc.station ≠ .draining :=
  ⟨by decide, ⟨rfl, fun i e h => absurd ((entry?_station .draining i).symm.trans h) (by simp)⟩, by decide +kernel, by decide,
    by decide⟩

/-! ### Burst reports -/

theorem witness_ListenReportFeedsTheMap :
    let s := asking 15 (.listen 7 none) (station .listening)
    let b := Burst.ofWord (burstWord 15 7 true true 63 1 true 2 5 0)
    let c := Burst.ofWord (burstWord 15 7 false false 0 0 false 0 0 0)
    (s.ListenAsks b ∧ s.joined = true ∧ 1 ≤ b.slot ∧ b.handset? = some 5)
    ∧ (s.ListenAsks c ∧ 1 ≤ c.slot ∧ c.handset? = none)
    ∧ ({ slot := 1, carrier := 0 } : Cell) ≠ { slot := b.slot, carrier := b.carrier } :=
  ⟨⟨⟨none, by decide +kernel⟩, by decide +kernel⟩, ⟨⟨none, by decide +kernel⟩, by decide +kernel⟩, by decide +kernel⟩

theorem witness_HearingUpdatesTheOverheardList :
    (holding (.idle 0) (station .active)).isHeld 5 = true ∧ (station .active).isHeld 5 = false := by decide +kernel

theorem witness_HearingUpdatesTheOverheardList_answers :
    (station .listening).isActive = false
    ∧ (unsure (station .active)).tb.within request5.replyBy 1 128 = false
    ∧ (holding (.idle 0) (station .active)).isHeld request5.handset = true
    ∧ (station .active).hasAllocatable = false
    ∧ (let s := hearing5 0 (inQuiet (station .active))
       s.isActive = true ∧ s.tb.within request5.replyBy 1 128 = true ∧ s.isHeld request5.handset = false
       ∧ s.hasAllocatable = true ∧ s.overheard? request5.handset = some (heard 0)) := by decide +kernel

theorem witness_BeaconQueueAdmission :
    (beaconFull (station .active)).sp.beaconQ.length = 8 ∧ (station .active).sp.beaconQ.length < 8 := by decide +kernel

/-- Station 3 with its beacon listening. -/
def onBeacon (s : State) : State := asking 0 (.beacon 0) (s.writeSlot 0 .beacon)

/-- Whatever else the state holds, the plan in force asks for a report of the cell (0, 0). -/
theorem onBeacon_asks (s : State) (b : Burst) (h : b.slot = 0 ∧ b.carrier = 0) : (onBeacon s).BeaconAsks b := by
  simp [State.BeaconAsks, State.planned, onBeacon, asking, h]

/-- What every beacon uplink statement asks of a record: its own message, from handset 5, that the plan asks for. -/
theorem witness_AttachIsAnswered_asked :
    (onBeacon (station .active)).BeaconAsks (Burst.ofWord (uplink 1 (2#8 ++ 3#8)))
    ∧ (Burst.ofWord (uplink 1 (2#8 ++ 3#8))).handset? = some 5
    ∧ (Burst.ofWord (uplink 1 (2#8 ++ 3#8))).message = .attach 2 3
    ∧ (Burst.ofWord (uplink 1 (2#8 ++ 4#8))).message = .attach 2 4
    ∧ (onBeacon (station .active)).serving = true := ⟨by unfold State.BeaconAsks; decide +kernel, by decide +kernel⟩

theorem witness_AttachIsAnswered :
    (let s := onBeacon (station .active)
     s.find? 5 = none ∧ s.freeIndex = some 0 ∧ s.sc.station = .active ∧ s.sc.config.stationNumber = 3)
    ∧ ((onBeacon (station .draining)).sc.station = .draining ∧ (onBeacon (station .draining)).serving = true)
    ∧ (let s := { onBeacon (station .active) with
         rc := { Registration.reset with table := Vector.replicate 64 (some { handset5 (.idle 0) with handset := 6 }) } }
       s.find? 5 = none ∧ s.freeIndex = none)
    ∧ (onBeacon (holding (.idle 0) (station .active))).find? 5 = some (0, handset5 (.idle 0))
    ∧ (onBeacon (holding talking (station .active))).find? 5 = some (0, handset5 talking)
    ∧ (1 = (handset5 talking).stamp.epoch)
    ∧ (129 ≠ (handset5 talking).stamp.epoch ∧ serialNewer 129 (handset5 talking).stamp.epoch = false)
    ∧ serialNewer 128 (handset5 talking).stamp.epoch = true := by decide +kernel

theorem witness_PresenceResetsSilence :
    ((onBeacon (station .active)).BeaconAsks (Burst.ofWord (uplink 2 0)))
    ∧ ((Burst.ofWord (uplink 2 0)).handset? = some 5 ∧ (Burst.ofWord (uplink 2 0)).message = .presence)
    ∧ ((onBeacon (station .active)).find? 5 = none ∧ (onBeacon (station .active)).serving = true
      ∧ (onBeacon (station .active)).sc.station = .active)
    ∧ ((onBeacon (station .draining)).find? 5 = none ∧ (onBeacon (station .draining)).sc.station = .draining)
    ∧ ((onBeacon (holding (.idle 46) (station .active))).find? 5 = some (0, handset5 (.idle 46)))
    ∧ ((onBeacon (holding talking (station .active))).find? 5 = some (0, handset5 talking)
      ∧ (handset5 talking).engaged = true) := ⟨by unfold State.BeaconAsks; decide +kernel, by decide +kernel⟩

theorem witness_BurstReportsAreReadOrDiscarded :
    ((onBeacon (station .active)).BeaconAsks (Burst.ofWord (uplink 7 0)) ∧ (Burst.ofWord (uplink 7 0)).message = .none)
    ∧ ((onBeacon (station .active)).BeaconAsks (Burst.ofWord (uplink 5 0)) ∧ (Burst.ofWord (uplink 5 0)).message = .clear)
    ∧ ((onBeacon (station .active)).BeaconAsks (Burst.ofWord (burstWord 0 0 true true 63 2 true 2 5 0))
      ∧ (Burst.ofWord (burstWord 0 0 true true 63 2 true 2 5 0)).handset? = none
      ∧ (Burst.ofWord (burstWord 0 0 true true 63 2 true 2 5 0)).message = .presence)
    ∧ ((Burst.ofWord (burstWord 0 0 true true 63 1 true 3 0 0)).handset? = none
      ∧ (Burst.ofWord (burstWord 0 0 true true 63 1 true 3 0 0)).message = .call)
    ∧ ((Burst.ofWord (burstWord 0 0 true true 63 1 true 4 0 77)).handset? = none
      ∧ (Burst.ofWord (burstWord 0 0 true true 63 1 true 4 0 77)).message = .pageReply 77)
    ∧ ((Burst.ofWord (burstWord 0 0 true true 63 1 true 1 0 3)).handset? = none
      ∧ (Burst.ofWord (burstWord 0 0 true true 63 1 true 1 0 3)).message = .attach 0 3) := by
  unfold State.BeaconAsks
  decide +kernel

theorem witness_BurstReportsAreReadOrDiscarded_bearer :
    let b := Burst.ofWord (bearerWord true 0)
    let stranger := Burst.ofWord (burstWord 7 3 true true 20 1 true 0 6 0)
    let other := Burst.ofWord (burstWord 7 3 true true 20 2 true 0 5 0)
    (b.sync = true ∧ ¬(b.check = true ∧ (b.origin = .station ∨ ∃ x, b.identity = some x ∧ x ≠ 5)))
    ∧ (Burst.ofWord (bearerWord false 0)).sync = false
    ∧ (stranger.sync = true ∧ stranger.check = true ∧ stranger.identity = some 6)
    ∧ (other.sync = true ∧ other.check = true ∧ other.origin = .station) := by
  refine ⟨⟨by decide +kernel, ?_⟩, by decide +kernel, by decide +kernel, by decide +kernel⟩
  rintro ⟨-, h | ⟨x, h, hx⟩⟩
  · exact absurd h (by decide +kernel)
  · rw [show (Burst.ofWord (bearerWord true 0)).identity = some 5 by decide +kernel] at h
    cases h
    exact hx rfl

theorem witness_BurstReportsAreReadOrDiscarded_plan :
    let p := { SlotPlanner.reset with sent := [{ slot := 0, message := .grant 5 }] }
    p.sent[0]? = some { slot := 0, message := .grant 5 } ∧ p.inForce[15]? = some { role := .idle, reported := false } := by
  decide +kernel

theorem witness_BurstReportsAreReadOrDiscarded_discards :
    let b := Burst.ofWord (bearerWord true 0)
    ((station .active).planned b.slot).role = .idle
    ∧ (let s := (asking 7 (.bearer 3 5) (station .active)).markReported 7
       (s.planned b.slot).reported = true)
    ∧ 2 ≠ b.carrier
    ∧ ((asking 7 (.beacon 2) (station .active)).planned b.slot).role = .beacon 2
    ∧ ((asking 7 (.bearer 2 5) (station .active)).planned b.slot).role = .bearer 2 5
    ∧ ((asking 7 (.held 2 5) (station .active)).planned b.slot).role = .held 2 5
    ∧ ((asking 7 (.listen 2 none) (station .active)).planned b.slot).role = .listen 2 none := by decide +kernel

theorem witness_BurstReportsAreReadOrDiscarded_no_longer :
    let b := Burst.ofWord (bearerWord true 0)
    let s := (station .active).writeSlot 7 (.reserved 3 5)
    (∀ c, s.slotEntry b.slot ≠ .bearer c 5 ∧ s.slotEntry b.slot ≠ .held c 5)
    ∧ (asking 7 (.bearer 3 5) s).planned b.slot = { role := .bearer b.carrier 5, reported := false }
    ∧ (asking 7 (.held 3 5) s).planned b.slot = { role := .held b.carrier 5, reported := false }
    ∧ b.slot < 16 := by
  intro b s
  have h : s.slotEntry b.slot = .reserved 3 5 := by decide +kernel
  exact ⟨fun c => by simp [h], by decide +kernel⟩

theorem witness_BurstReportsAreReadOrDiscarded_no_entry :
    let b := Burst.ofWord (bearerWord true 0)
    let bearing := asking 7 (.bearer 3 5) ((station .active).writeSlot 7 (.bearer 3 5))
    let held := asking 7 (.held 3 5) ((station .active).writeSlot 7 (.held 3 5))
    (bearing.BearerAsks b 5 ∧ bearing.find? 5 = none) ∧ held.HeldAsks b 5 ∧ held.find? 5 = none := by
  unfold State.BearerAsks State.HeldAsks
  decide +kernel

theorem witness_BurstReportsAreReadOrDiscarded_rows :
    let role := ((station .active).planned 7).role
    (∀ c r, role ≠ .listen c r) ∧ (∀ c h, role ≠ .bearer c h) ∧ (∀ c h, role ≠ .held c h) ∧ (∀ c, role ≠ .beacon c)
    ∧ (∃ epoch target, (Burst.ofWord (uplink 1 3)).message = .attach epoch target)
    ∧ (Burst.ofWord (uplink 2 0)).message = .presence ∧ (Burst.ofWord (uplink 3 0)).message = .call
    ∧ ∃ tag, (Burst.ofWord (uplink 4 77)).message = .pageReply tag := by
  intro role
  have h : role = .idle := by decide +kernel
  exact ⟨by simp [h], by simp [h], by simp [h], by simp [h], ⟨0, 3, by decide +kernel⟩, by decide +kernel, by decide +kernel,
    ⟨77, by decide +kernel⟩⟩

theorem witness_BurstReportsAreReadOrDiscarded_out_of_service :
    (asking 15 (.listen 7 none) (station .configured)).ListenAsks (Burst.ofWord (burstWord 15 7 true true 63 1 true 2 5 0))
    ∧ (station .configured).joined = false
    ∧ (onBeacon (station .listening)).BeaconAsks (Burst.ofWord (uplink 2 0)) ∧ (onBeacon (station .listening)).serving = false :=
  ⟨⟨none, by decide +kernel⟩, by decide, by unfold State.BeaconAsks; decide +kernel, by decide +kernel⟩

theorem witness_SelectionTakesTheQuietestCell :
    let s := inQuiet (station .active)
    s.serving = true ∧ s.selectCell = some { slot := 1, carrier := 1 } ∧ s.allocatable { slot := 15, carrier := 7 } = true := by
  decide +kernel

/-- The configuration after a full reset, with station number 3. -/
theorem inRange_station (st : StationState) : ConfigRecord.InRange (station st).sc.config := by
  cases st <;> constructor <;> decide

theorem witness_SelectionTakesTheQuietestCell_config : ConfigRecord.InRange (inQuiet (station .active)).sc.config :=
  inRange_station .active

theorem witness_CallSetsUpOrIsDenied_asked :
    ((onBeacon (station .active)).BeaconAsks (Burst.ofWord (uplink 3 0)))
    ∧ ((Burst.ofWord (uplink 3 0)).handset? = some 5 ∧ (Burst.ofWord (uplink 3 0)).message = .call)
    ∧ ((onBeacon (station .draining)).serving = true ∧ (onBeacon (station .draining)).sc.station = .draining)
    ∧ ((onBeacon (station .active)).find? 5 = none ∧ (onBeacon (station .active)).sc.station = .active) :=
  ⟨by unfold State.BeaconAsks; decide +kernel, by decide +kernel⟩

/-- Station 3 as the Call Controller finds it, after the Registration Controller took an uplink of handset 5. -/
def afterUplink (s : State) : State := ((onBeacon s).markReported 0).hearUplink 5 20

theorem witness_CallSetsUpOrIsDenied :
    (afterUplink (holding talking (station .active))).find? 5 = some (0, handset5 talking)
    ∧ (let v := afterUplink (holding (.idle 3) (station .active))
       v.find? 5 = some (0, handset5 (.idle 0)) ∧ (handset5 (.idle 0)).engaged = false ∧ v.selectCell = none)
    ∧ (let v := afterUplink (inQuiet (holding (.idle 3) (station .active)))
       let c : Cell := { slot := 1, carrier := 1 }
       v.find? 5 = some (0, handset5 (.idle 0)) ∧ v.selectCell = some c ∧ (v.moveCursor c).commitRefusal? c.slot = none
       ∧ v.page? 5 = none ∧ (paging 9 v).page? 5 = some (page5 9)) := by decide +kernel

theorem witness_PageReplySetsUpOrIsDenied_asked :
    ((onBeacon (station .active)).BeaconAsks (Burst.ofWord (uplink 4 77)))
    ∧ ((Burst.ofWord (uplink 4 77)).handset? = some 5 ∧ (Burst.ofWord (uplink 4 77)).message = .pageReply 77)
    ∧ ((onBeacon (station .draining)).serving = true ∧ (onBeacon (station .draining)).sc.station = .draining)
    ∧ ((onBeacon (station .active)).find? 5 = none ∧ (onBeacon (station .active)).sc.station = .active) :=
  ⟨by unfold State.BeaconAsks; decide +kernel, by decide +kernel⟩

theorem witness_PageReplySetsUpOrIsDenied :
    (afterUplink (holding talking (station .active))).find? 5 = some (0, handset5 talking)
    ∧ (let v := afterUplink (holding (.idle 3) (station .active))
       v.find? 5 = some (0, handset5 (.idle 0)) ∧ v.page? 5 = none)
    ∧ (let v := afterUplink (paging 9 (holding (.idle 3) (station .active)))
       v.page? 5 = some (page5 9) ∧ (page5 9).tag ≠ 78 ∧ (page5 9).tag = 77 ∧ v.selectCell = none)
    ∧ (let v := afterUplink (inQuiet (paging 9 (holding (.idle 3) (station .active))))
       let c : Cell := { slot := 1, carrier := 1 }
       v.page? 5 = some (page5 9) ∧ v.selectCell = some c ∧ (v.moveCursor c).commitRefusal? c.slot = none) := by
  decide +kernel

/-- Station 3 with handset 5 in a phase on the bearer (7, 3). -/
def onBearer (p : Phase) : State := asking 7 (.bearer 3 5) ((holding p (station .active)).writeSlot 7 (.bearer 3 5))

/-- Whatever the phase of handset 5, the plan in force asks for a report of its bearer. -/
theorem onBearer_asks (p : Phase) (b : Burst) (h : b.slot = 7 ∧ b.carrier = 3) : (onBearer p).BearerAsks b 5 := by
  simp [State.BearerAsks, State.planned, onBearer, asking, h, State.stillCarries, State.slotEntry, State.writeSlot,
    SlotPlanner.write]

theorem witness_BearerReportOfASetup :
    ((onBearer (.setup cell73 77 Link.fresh)).BearerAsks (Burst.ofWord (bearerWord true 5)) 5)
    ∧ ((onBearer (.setup cell73 77 Link.fresh)).BearerAsks (Burst.ofWord (bearerWord false 0)) 5)
    ∧ ((onBearer (.setup cell73 77 Link.fresh)).find? 5 = some (0, handset5 (.setup cell73 77 Link.fresh))
      ∧ ((Burst.ofWord (bearerWord false 0)).forHandset 5).good = false
      ∧ ((Burst.ofWord (bearerWord true 5)).forHandset 5).good = true
      ∧ ((Burst.ofWord (bearerWord true 5)).forHandset 5).clear = true
      ∧ ((Burst.ofWord (bearerWord true 0)).forHandset 5).good = true
      ∧ ((Burst.ofWord (bearerWord true 0)).forHandset 5).clear = false) := by
  unfold State.BearerAsks
  decide +kernel

theorem witness_BearerReportOfACall :
    let far : Link := { ring := Ring.fresh, missRun := 59 }
    let near : Link := { ring := Ring.fresh, missRun := 58 }
    ((onBearer talking).BearerAsks (Burst.ofWord (bearerWord true 5)) 5)
    ∧ ((onBearer talking).BearerAsks (Burst.ofWord (bearerWord false 0)) 5)
    ∧ ((onBearer talking).find? 5 = some (0, handset5 talking)
      ∧ (onBearer (.inCall cell73 77 far)).find? 5 = some (0, handset5 (.inCall cell73 77 far))
      ∧ (onBearer (.inCall cell73 77 far)).sc.config.dropCount ≤ (far.enter false true).missRun
      ∧ (near.enter false true).missRun < (onBearer talking).sc.config.dropCount
      ∧ (onBearer departing).find? 5 = some (0, handset5 departing)) := by
  unfold State.BearerAsks
  decide +kernel

theorem witness_BearerReportOfACall_arriving :
    let s (p : InPhase) := asking 7 (.bearer 3 5) ((takingIn p).writeSlot 7 (.bearer 3 5))
    ((s .reserved).BearerAsks (Burst.ofWord (bearerWord true 0)) 5)
    ∧ ((s (.awaiting 1)).BearerAsks (Burst.ofWord (bearerWord true 0)) 5)
    ∧ ((s .reserved).find? 5 = some (0, handset5 (.arriving cell73 3081))
      ∧ (s .reserved).inOf 0 = some 0 ∧ (s .reserved).inRecord? 0 = some (arrivingBy .reserved)
      ∧ (s (.awaiting 1)).inRecord? 0 = some (arrivingBy (.awaiting 1))) := by
  unfold State.BearerAsks
  decide +kernel

theorem witness_BearerReportOfACall_measured :
    ((onBearer (.idle 7)).find? 5 = some (0, handset5 (.idle 7)) ∧ (handset5 (.idle 7)).phase = .idle 7)
    ∧ ((onBearer (.arriving cell73 77)).find? 5 = some (0, handset5 (.arriving cell73 77))
      ∧ (onBearer (.arriving cell73 77)).inOf 0 = none)
    ∧ (asking 7 (.bearer 3 5) ((station .active).writeSlot 7 (.bearer 3 5))).find? 5 = none := by decide +kernel

theorem witness_TriggerFires :
    (handingOut talking (.seeking 20 [])).outOf 0 = some 0
    ∧ (unsure (holding talking (station .active))).tb.known = false
    ∧ (let s := holding talking (station .active)
       let e := handset5 talking
       s.entry? 0 = some e ∧ s.tb.known = true ∧ e.holdoff = 0 ∧ s.sc.station = .active ∧ e.armed = true
       ∧ e.merit s.sc.config < s.sc.config.triggerThreshold ∧ Link.fresh.missRun < s.sc.config.collapseCount
       ∧ s.outOf 0 = none ∧ s.fireKind? e = some .threshold ∧ s.freeOut = some 0)
    ∧ (let e := { handset5 talking with armed := false }
       let s := (station .active).setEntry 0 (some e)
       s.entry? 0 = some e ∧ e.armed = false ∧ s.fireKind? e = none)
    ∧ (let l : Link := { ring := Ring.fresh, missRun := 3 }
       let s := holding (.inCall cell73 3081 l) (station .active)
       s.sc.config.collapseCount ≤ l.missRun ∧ s.entry? 0 = some (handset5 (.inCall cell73 3081 l)))
    ∧ (let s := holding talking (station .draining)
       s.tb.known = true ∧ s.sc.station = .draining ∧ s.fireKind? (handset5 talking) = some .forced)
    ∧ (let e := { handset5 talking with holdoff := 1, level := 432 }
       let s := (station .active).setEntry 0 (some e)
       s.entry? 0 = some e ∧ e.holdoff ≠ 0
       ∧ s.sc.config.triggerThreshold + s.sc.config.hysteresis ≤ e.merit s.sc.config) := by decide +kernel

theorem witness_TriggerFires_records_and_queue :
    (let o (i : Nat) : Option OutRecord := some { leavingBy (.seeking 20 []) with entry := i }
     let s := ((((holding talking (station .active)).setOut 0 (o 1)).setOut 1 (o 2)).setOut 2 (o 3)).setOut 3 (o 4)
     s.outOf 0 = none ∧ s.freeOut = none)
    ∧ (let n : Notice := { sender := 3, dest := 0, handset := 5, stamp := { epoch := 1, hop := 0 }, mark := 14
                           body := .seek 0 cell73 320 }
       let x := (station .active).setEntry 0 (some { handset5 talking with armed := false })
       x.admits n = true ∧ (queueOf 14 x).admits n = false) := by decide +kernel

theorem witness_HeldReportReturnsTheCall :
    let s := asking 7 (.held 3 5) ((handingOut departing (.fallback 9 10 cell73 1)).writeSlot 7 (.held 3 5))
    (s.HeldAsks (Burst.ofWord (bearerWord true 5)) 5 ∧ s.HeldAsks (Burst.ofWord (bearerWord true 0)) 5
      ∧ s.HeldAsks (Burst.ofWord (bearerWord false 0)) 5)
    ∧ (s.find? 5 = some (0, handset5 departing) ∧ s.outOf 0 = some 0
      ∧ s.outRecord? 0 = some (leavingBy (.fallback 9 10 cell73 1))
      ∧ ((Burst.ofWord (bearerWord false 0)).forHandset 5).good = false
      ∧ ((Burst.ofWord (bearerWord true 5)).forHandset 5).good = true
      ∧ ((Burst.ofWord (bearerWord true 5)).forHandset 5).clear = true
      ∧ ((Burst.ofWord (bearerWord true 0)).forHandset 5).clear = false) := by
  unfold State.HeldAsks
  decide +kernel

theorem witness_HeldReportReturnsTheCall_measured :
    let s := asking 7 (.held 3 5) ((handingOut departing (.switching 9 10 cell73)).writeSlot 7 (.held 3 5))
    s.planned 7 = { role := .held 3 5, reported := false } ∧ s.stillCarries 7 5 = true
    ∧ s.find? 5 = some (0, handset5 departing) ∧ s.outOf 0 = some 0
    ∧ ∀ q o target m nc n, s.outOf 0 = some q → s.outRecord? q = some o → o.phase ≠ .fallback target m nc n := by
  intro s
  refine ⟨by decide +kernel, by decide +kernel, by decide +kernel, by decide +kernel, fun q o target m nc n hq ho => ?_⟩
  cases (show s.outOf 0 = some 0 by decide +kernel).symm.trans hq
  cases (show s.outRecord? 0 = some (leavingBy (.switching 9 10 cell73)) by decide +kernel).symm.trans ho
  simp [leavingBy]

/-! ### The bus -/

theorem witness_NoticeBeginsAndMayLose_begins :
    let q := waiting (noticeFrom9 (.claim true))
    let s := { station .active with bus := { Bus.reset with
      queue := [waiting (noticeFrom9 (.seek 17 cell73 210)), q], yieldCount := 3 } }
    (s.bus.tx = .waiting ∧ s.serving = true ∧ 16 ≤ s.bus.idle + 16 ∧ 1 ≤ s.sc.config.yieldBurst
      ∧ s.bus.yieldCount < s.sc.config.yieldBurst ∧ s.bus.queue[1]? = some q ∧ q.notice.kindClass = .completion)
    ∧ (s.bus.queue.take 1).all (fun p => p.notice.kindClass != q.notice.kindClass) = true := by decide +kernel

theorem witness_NoticeBeginsAndMayLose_before :
    let q := waiting (noticeFrom9 (.claim true))
    let l := [waiting (noticeFrom9 (.seek 17 cell73 210)), q]
    ∀ j p, j < 1 → l[j]? = some p → p.notice.kindClass ≠ q.notice.kindClass := by
  intro q l j p hj hp
  obtain rfl : j = 0 := by omega
  cases hp
  decide

theorem witness_NoticeBeginsAndMayLose_other_classes :
    (let q := waiting (noticeFrom9 (.seek 17 cell73 210))
     let s := { station .active with bus := { Bus.reset with queue := [q, waiting (noticeFrom9 (.find 4))], yieldCount := 4 } }
     s.bus.queue[0]? = some q ∧ (∀ p ∈ s.bus.queue, p.notice.kindClass ≠ .completion) ∧ q.notice.kindClass = .protocol
     ∧ s.sc.config.yieldTime ≤ s.bus.idle + 128)
    ∧ (let q := waiting (noticeFrom9 (.find 4))
       let s := { station .active with bus := { Bus.reset with queue := [q] } }
       s.bus.queue[0]? = some q ∧ (∀ p ∈ s.bus.queue, p.notice.kindClass ≠ .completion)
       ∧ ∀ p ∈ s.bus.queue, p.notice.kindClass ≠ .protocol) := by decide +kernel

theorem witness_NoticeBeginsAndMayLose_loses :
    let w : NoticeWord := match (contending false).bus.tx with
      | .contending w => w
      | .waiting => 0
      | .sending _ => 0
    ((contending false).bus.tx = .contending w ∧ w.getMsbD 1 = true ∧ w.getMsbD 9 = true
      ∧ ∀ q ∈ (contending false).bus.queue, q.condemned = false)
    ∧ ((contending true).bus.tx = .contending w
      ∧ ∃ q ∈ (contending true).bus.queue, q.inTransmission = true ∧ q.condemned = true) := by decide +kernel

theorem witness_NoticeBeginsAndMayLose_refrains :
    let n := waiting (noticeFrom9 (.claim true))
    let s := { station .active with bus := { Bus.reset with queue := [n] } }
    let yielding := { s with bus := { s.bus with yieldCount := 4, idle := 100 } }
    ((contending false).bus.tx ≠ .waiting)
    ∧ (s.bus.tx = .waiting ∧ s.bus.idle + 15 < 16)
    ∧ ((station .listening).bus.tx = .waiting ∧ (station .listening).serving = false)
    ∧ (station .active).bus.queue = []
    ∧ (yielding.bus.tx = .waiting ∧ yielding.sc.config.yieldBurst ≤ yielding.bus.yieldCount
      ∧ yielding.bus.idle + 27 < yielding.sc.config.yieldTime) := by decide +kernel

theorem witness_NoticeBeginsAndMayLose_keeps :
    let w : NoticeWord := match (contending false).bus.tx with
      | .contending w => w
      | .waiting => 0
      | .sending _ => 0
    (contending false).bus.tx = .contending w ∧ w.getMsbD 0 = false
    ∧ ∀ v, (station .active).bus.tx ≠ .contending v := by
  refine ⟨by decide +kernel, by decide +kernel, fun v h => ?_⟩
  cases h

theorem witness_NoticeSentAndYielding :
    let before := [waiting (noticeFrom9 (.find 4))]
    let q := onTheBus (noticeFrom9 (.claim true)) false
    let s := { station .active with bus := { Bus.reset with queue := before ++ q :: [], tx := .sending 0 } }
    s.bus.tx ≠ .waiting ∧ s.bus.queue = before ++ q :: [] ∧ (∀ p ∈ before, p.inTransmission = false)
    ∧ q.inTransmission = true ∧ (station .active).bus.tx = .waiting := by decide +kernel

theorem witness_NoticeSentAndYielding_lowest_owed :
    let e := { handset5 (.idle 0) with claimOwed := true }
    let s (k : Nat) := (queueOf k (station .active)).setEntry 0 (some e)
    ((s 0).entry? 0 = some e ∧ e.claimOwed = true)
    ∧ (let u := { s 8 with bus := { (s 8).bus with mode := .opened } }
       (s 8).bus.queue.length ≤ 8 ∧ u.admits (u.claimOf e) = true)
    ∧ (s 16).admits ((s 16).claimOf e) = false ∧ ¬(s 16).bus.queue.length ≤ 8 := by decide +kernel

theorem witness_NoticeSentAndYielding_none_owed :
    ∀ i e, (station .active).entry? i = some e → e.claimOwed = false :=
  fun i _ h => absurd ((entry?_station .active i).symm.trans h) (by simp)

theorem witness_NoticeSentAndYielding_owed :
    let e := { handset5 (.idle 0) with claimOwed := true }
    let s := (queueOf 16 (station .active)).setEntry 0 (some e)
    (s.occupancyFell.entry? 0 = some e ∧ e.claimOwed = true)
    ∧ ∀ j f, j < 0 → s.occupancyFell.entry? j = some f → f.claimOwed = false :=
  ⟨by decide +kernel, fun j _ h => absurd h (Nat.not_lt_zero j)⟩

/-- A word with a check sequence that passes. -/
def checked (head : BitVec 96) : NoticeWord := head ++ checkSequence head

theorem witness_NoticeHeardIsTakenOrNot_refused :
    (station .configured).joined = false
    ∧ (contending false).bus.tx ≠ .waiting
    ∧ (station .listening).joined = true ∧ (station .listening).bus.tx = .waiting
    ∧ checkPasses 0 = false
    ∧ (let w := ({ noticeFrom9 (.claim true) with sender := 3 } : Notice).encode
       wordSender w = (station .active).sc.config.stationNumber ∧ checkPasses w = true)
    ∧ (let w := checked (0#4 ++ 9#6 ++ 0#86)
       checkPasses w = true ∧ wordSender w ≠ (station .active).sc.config.stationNumber ∧ Notice.decode w = none)
    ∧ (let w := checked (3#4 ++ 49#6 ++ 0#86)
       checkPasses w = true ∧ wordSender w ≠ (station .active).sc.config.stationNumber ∧ Notice.decode w = none) := by
  decide +kernel

theorem witness_NoticeHeardIsTakenOrNot_taken :
    (let n := { noticeFrom9 (.take 17 cell73) with dest := 4 }
     checkPasses n.encode = true ∧ wordSender n.encode ≠ 3 ∧ Notice.decode n.encode = some n
     ∧ n.isReply = true ∧ n.dest ≠ 0 ∧ n.dest ≠ 3)
    ∧ (let n := noticeFrom9 (.take 17 cell73)
       checkPasses n.encode = true ∧ Notice.decode n.encode = some n ∧ ¬(n.isReply = true ∧ n.dest ≠ 0 ∧ n.dest ≠ 3)
       ∧ (station .active).bus.rx.length < 8
       ∧ ({ (station .active).bus with rx := List.replicate 8 n } : Bus).rx.length = 8) := by decide +kernel

theorem witness_NoticeAdmission :
    (station .listening).serving = false
    ∧ (let n := noticeFrom9 (.here 4 false)
       let s := { station .active with bus := { Bus.reset with mode := .pressed } }
       s.serving = true ∧ n.kindClass = .enquiry ∧ s.bus.mode = .pressed)
    ∧ (let n := noticeFrom9 (.offer 17 500 6)
       let s := { station .active with bus := { Bus.reset with
         queue := [onTheBus n false, waiting (noticeFrom9 (.offer 17 430 6))] } }
       s.serving = true ∧ ¬(n.kindClass = .enquiry ∧ s.bus.mode = .pressed) ∧ s.coalescePlace? n = some 1)
    ∧ (let n := noticeFrom9 (.take 17 cell73)
       n.kindClass = .completion ∧ (queueOf 15 (station .active)).coalescePlace? n = none
       ∧ (queueOf 15 (station .active)).bus.queue.length < 16 ∧ (queueOf 16 (station .active)).bus.queue.length = 16)
    ∧ (let n := noticeFrom9 (.transfer 17 3081)
       n.kindClass ≠ .completion ∧ (queueOf 13 (station .active)).coalescePlace? n = none
       ∧ (queueOf 13 (station .active)).bus.queue.length < 14 ∧ (queueOf 14 (station .active)).bus.queue.length = 14)
    ∧ (holding talking (station .active)).entry? 0 = some (handset5 talking) := by decide +kernel

theorem witness_RepliesReachTheirRecord_offers :
    let n := noticeFrom9 (.offer 17 500 6)
    (let s := receiving n (handingOut talking (.seeking 20 []))
     s.serving = true ∧ s.bus.rx = [n] ∧ n.dest = s.sc.config.stationNumber
     ∧ s.outFor? n.handset 17 = some (0, leavingBy (.seeking 20 [])) ∧ s.outFor? n.handset 18 = none)
    ∧ (let o := leavingBy (.asking [] 9 22 4)
       (receiving n (handingOut talking (.asking [] 9 22 4))).outFor? n.handset 17 = some (0, o) ∧ o.phase.code ≠ 1)
    ∧ ({ n with dest := 0 } : Notice).dest = 0 := by decide +kernel

theorem witness_RepliesReachTheirRecord_order :
    CandidatesOrdered [candidate14, { candidate14 with station := 30 }]
    ∧ ([candidate14, { candidate14 with station := 30 }].map (·.station)).Nodup
    ∧ (let weak := { candidate14 with station := 40, merit := 469 }
       let l := enterCandidate weak [candidate14, { candidate14 with station := 30 }, { candidate14 with station := 31 }]
       weak ∉ l ∧ l.length = 3) := by
  unfold CandidatesOrdered
  decide

theorem witness_RepliesReachTheirRecord_declines :
    let n := noticeFrom9 (.decline 17 .noBearer)
    (let s := receiving n (handingOut talking (.asking [] 9 22 4))
     s.serving = true ∧ s.bus.rx = [n] ∧ n.dest = s.sc.config.stationNumber
     ∧ s.outFor? n.handset 17 = some (0, leavingBy (.asking [] n.sender 22 4)) ∧ s.entry? 0 = some (handset5 talking)
     ∧ s.outFor? n.handset 18 = none)
    ∧ ((receiving n (handingOut talking (.asking [] 14 22 4))).outFor? n.handset 17 = some (0, leavingBy (.asking [] 14 22 4))
      ∧ 14 ≠ n.sender)
    ∧ (let o := leavingBy (.seeking 20 [])
       (receiving n (handingOut talking o.phase)).outFor? n.handset 17 = some (0, o) ∧ o.phase.code ≠ 2) := by decide +kernel

theorem witness_RepliesReachTheirRecord_takes :
    let n := noticeFrom9 (.take 17 { slot := 11, carrier := 6 })
    (let s := receiving n ((handingOut talking (.asking [] 9 20 4)).writeSlot 7 (.bearer 3 5))
     s.serving = true ∧ s.bus.rx = [n] ∧ n.dest = s.sc.config.stationNumber
     ∧ s.outFor? n.handset 17 = some (0, leavingBy (.asking [] n.sender n.mark 4)) ∧ s.entry? 0 = some (handset5 talking)
     ∧ s.tb.within n.mark 1 128 = true ∧ s.changeRefusal? (heldChange cell73 5 n.mark) = none
     ∧ s.outFor? n.handset 18 = none)
    ∧ (let s := receiving { n with mark := 10 } ((handingOut talking (.asking [] 9 10 4)).writeSlot 7 (.bearer 3 5))
       s.outFor? n.handset 17 = some (0, leavingBy (.asking [] n.sender 10 4)) ∧ s.tb.within 10 1 128 = false)
    ∧ (receiving n (handingOut talking (.asking [] 9 20 4))).changeRefusal? (heldChange cell73 5 n.mark) ≠ none
    ∧ ((receiving n (handingOut talking (.asking [] 9 21 4))).outFor? n.handset 17 = some (0, leavingBy (.asking [] 9 21 4))
      ∧ n.mark ≠ 21)
    ∧ (let o := leavingBy (.seeking 20 [])
       (receiving n (handingOut talking o.phase)).outFor? n.handset 17 = some (0, o) ∧ o.phase.code ≠ 2) := by decide +kernel

theorem witness_ClaimsSupersedeOrSucceed :
    let stamped (epoch hop : BitVec 8) : Notice := { noticeFrom9 (.claim true) with stamp := { epoch := epoch, hop := hop } }
    (station .active).find? 5 = none
    ∧ (holding (.idle 0) (station .active)).find? 5 = some (0, handset5 (.idle 0))
    ∧ (holding talking (station .active)).find? 5 = some (0, handset5 talking)
    ∧ (stamped 1 1).stamp.newer (handset5 talking).stamp = true
    ∧ (stamped 1 0).stamp = (handset5 talking).stamp
    ∧ ((stamped 129 0).stamp.older (handset5 talking).stamp = true
      ∧ (handset5 talking).stamp.older (stamped 129 0).stamp = true)
    ∧ ((stamped 0 0).stamp.older (handset5 talking).stamp = true
      ∧ (handset5 talking).stamp.older (stamped 0 0).stamp = false)
    ∧ (let n := stamped 1 1
       let s := receiving n (handingOut departing (.fallback 9 10 cell73 1))
       s.serving = true ∧ s.bus.rx = [n] ∧ n.body = .claim true ∧ s.find? n.handset = some (0, handset5 departing)
       ∧ s.outOf 0 = some 0 ∧ s.outRecord? 0 = some (leavingBy (.fallback 9 10 cell73 1))
       ∧ (leavingBy (.fallback 9 10 cell73 1)).phase.target? = some n.sender
       ∧ n.stamp = (handset5 departing).stamp.nextHop) := by decide +kernel

theorem witness_ClaimsSupersedeOrSucceed_other :
    let n := noticeFrom9 (.claim true)
    let s := receiving n (holding talking (station .active))
    ∀ i e, s.find? n.handset = some (i, e) → e.isLeaving = false ∨ n.stamp ≠ e.stamp.nextHop
      ∨ ∀ r o, s.outOf i = some r → s.outRecord? r = some o → o.phase.target? ≠ some n.sender := by
  intro n s i e h
  have g : s.find? n.handset = some (0, handset5 talking) := by decide +kernel
  rw [g] at h
  cases h
  exact Or.inl rfl

theorem witness_TransferIsTakenOrDeclined_refusals :
    let n := { noticeFrom9 (.transfer 17 3081) with mark := 12 }
    (station .draining).sc.station ≠ .active
    ∧ ((unsure (station .active)).sc.station = .active ∧ (unsure (station .active)).tb.known = false)
    ∧ ((station .active).tb.known = true ∧ (station .active).tb.within 11 2 128 = false
      ∧ (station .active).tb.within 139 2 128 = false ∧ (station .active).tb.within n.mark 2 128 = true
      ∧ (station .active).tb.within 138 2 128 = true)
    ∧ (let s := holding talking (station .active)
       s.find? n.handset = some (0, handset5 talking)
       ∧ ({ epoch := 1, hop := 0 } : Stamp).newer (handset5 talking).stamp = false)
    ∧ (hearing5 9 (station .active)).fresh 5 = false
    ∧ (let s := hearing5 8 (station .active)
       s.fresh 5 = true ∧ s.freeIn ≠ none ∧ s.freeIndex ≠ none)
    ∧ (let i : Option InRecord := some { arrivingBy .reserved with entry := 9 }
       ((((station .active).setIn 0 i).setIn 1 i).setIn 2 i |>.setIn 3 i).freeIn = none)
    ∧ ({ station .active with
          rc := { Registration.reset with table := Vector.replicate 64 (some { handset5 (.idle 0) with handset := 6 }) }
          }).freeIndex = none := by decide +kernel

theorem witness_TransferIsTakenOrDeclined_not_held (h : Handset) :
    ∀ i e, (hearing5 8 (station .active)).find? h = some (i, e) →
      (noticeFrom9 (.transfer 17 3081)).stamp.newer e.stamp = true := by
  intro i e g
  exact absurd ((entry?_station .active i).symm.trans (State.find?_some g).2.1) (by simp)

theorem witness_TransferIsTakenOrDeclined :
    let n := noticeFrom9 (.transfer 17 3081)
    (let s := receiving { n with dest := 4 } (station .active)
     s.serving = true ∧ s.bus.rx = [{ n with dest := 4 }] ∧ ({ n with dest := 4 } : Notice).dest ≠ 0
     ∧ ({ n with dest := 4 } : Notice).dest ≠ s.sc.config.stationNumber)
    ∧ (let s := receiving n (station .draining)
       s.serving = true ∧ n.dest = s.sc.config.stationNumber ∧ s.transferRefusal? n = some .leaving)
    ∧ (let s := receiving n (hearing5 8 (station .active))
       s.transferRefusal? n = none ∧ s.selectCell = none)
    ∧ (let s := receiving n (hearing5 8 (inQuiet (station .active)))
       let c : Cell := { slot := 1, carrier := 1 }
       let take : Notice := { sender := 3, dest := 9, handset := 5, stamp := { epoch := 1, hop := 1 }, mark := 20
                              body := .take 17 c }
       s.transferRefusal? n = none ∧ s.selectCell = some c ∧ s.overheard? n.handset = some (heard 8) ∧ s.freeIndex = some 0
       ∧ s.freeIn = some 0 ∧ (s.moveCursor c).admits take = true ∧ ((queueOf 16 s).moveCursor c).admits take = false) := by
  decide +kernel

theorem witness_QuestionsAreAnswered_seeks :
    let n := noticeFrom9 (.seek 17 cell73 210)
    (let s := receiving n (station .active)
     s.serving = true ∧ s.bus.rx = [n] ∧ n.body = .seek 17 cell73 210 ∧ (s.supersede n).hasAllocatable = false)
    ∧ ((receiving n (station .draining)).supersede n).isActive = false
    ∧ ((receiving n (unsure (station .active))).supersede n).tb.within n.mark 1 128 = false
    ∧ (let s := holding talking (station .active)
       ({ n with stamp := { epoch := 1, hop := 0 } } : Notice).stamp = (handset5 talking).stamp
       ∧ (s.supersede { n with stamp := { epoch := 1, hop := 0 } }).isHeld n.handset = true)
    ∧ (let v := (receiving n (hearing5 8 (inQuiet (station .active)))).supersede n
       v.isActive = true ∧ v.tb.within n.mark 1 128 = true ∧ v.isHeld n.handset = false ∧ v.hasAllocatable = true
       ∧ v.overheard? n.handset = some (heard 8) ∧ (heard 8).age ≤ 8)
    ∧ ((receiving n (hearing5 9 (inQuiet (station .active)))).supersede n).fresh n.handset = false := by decide +kernel

theorem witness_QuestionsAreAnswered_listens :
    let s := station .active
    let t := { s with mu := { s.mu with listens := [request5] } }
    s.tb.within request5.replyBy 1 128 = true ∧ s.isHeld request5.handset = false
    ∧ ¬(1 ≤ ({ request5 with cell := { slot := 0, carrier := 3 } } : ListenRequest).cell.slot
        ∧ ({ request5 with cell := { slot := 0, carrier := 3 } } : ListenRequest).cell.slot ≤ 15)
    ∧ (1 ≤ request5.cell.slot ∧ request5.cell.slot ≤ 15)
    ∧ (∃ x ∈ t.mu.listens, x.seeker = request5.seeker ∧ x.handset = request5.handset)
    ∧ (∀ x ∈ s.mu.listens, ¬(x.seeker = request5.seeker ∧ x.handset = request5.handset)) := by decide +kernel

theorem witness_QuestionsAreAnswered_heres :
    let n := noticeFrom9 (.here 4 true)
    (let s := receiving n (station .active)
     s.serving = true ∧ s.bus.rx = [n] ∧ (s.supersede n).findFor n.handset = none)
    ∧ (({ n with dest := 4 } : Notice).dest ≠ 0 ∧ ({ n with dest := 4 } : Notice).dest ≠ 3)
    ∧ (let v := (receiving n ((station .active).setFind 2 (some (find5 6 none)))).supersede n
       n.dest = v.sc.config.stationNumber ∧ v.findFor n.handset = some 2 ∧ v.findRecord? 2 = some (find5 6 none)
       ∧ (find5 6 none).number ≠ 5 ∧ (find5 6 none).number = 4) := by decide +kernel

theorem witness_QuestionsAreAnswered_finds :
    let n := noticeFrom9 (.find 4)
    (let s := receiving n (station .active)
     s.serving = true ∧ s.bus.rx = [n] ∧ s.find? n.handset = none)
    ∧ (receiving n (holding (.arriving cell73 3081) (station .active))).find? n.handset
        = some (0, handset5 (.arriving cell73 3081))
    ∧ (receiving n (holding talking (station .active))).find? n.handset = some (0, handset5 talking) := by decide +kernel

theorem witness_QuestionsAreAnswered_other_kinds :
    (station .active).bus.rx = []
    ∧ (let n := noticeFrom9 (.find 4)
       ∃ m rest, (receiving n (station .active)).bus.rx = m :: rest ∧ rowOf m.body ≠ Instr.takeReceived) :=
  ⟨rfl, noticeFrom9 (.find 4), [], rfl, by decide⟩

theorem witness_NoticesNotHandedOnOnlyLeaveTheQueue :
    let n := noticeFrom9 (.claim true)
    let s := receiving n (station .listening)
    s.sc.station = .listening ∧ s.bus.rx = [n] ∧ s.EmptyOutOfService :=
  ⟨rfl, rfl, let e := empty_station .listening
    ⟨e.table, e.finds, e.setups, e.pages, e.outbound, e.inbound, e.plan, e.changes, e.moves, e.beaconQ, e.listens⟩⟩

theorem witness_NoticesNotHandedOnOnlyLeaveTheQueue_others :
    let n := { noticeFrom9 (.take 17 cell73) with dest := 49 }
    ((station .configured).joined = false ∧ (receiving n (station .configured)).bus.rx = [n])
    ∧ ((station .active).serving = true ∧ n.isReply = true ∧ n.dest ≠ 0 ∧ n.dest ≠ (station .active).sc.config.stationNumber) := by
  decide +kernel

/-! ### The host -/

theorem witness_ConfigureAndJoin :
    (station .unconfigured).sc.station = .unconfigured ∧ (station .configured).sc.station = .configured
    ∧ (station .listening).joined = true ∧ (station .draining).joined = true
    ∧ (State.reset.sc.config.stationNumber = 0 ∧ joinFailure? State.reset.sc.config = some 1)
    ∧ joinFailure? (station .configured).sc.config = none
    ∧ (let c := (station .configured).sc.config
       joinFailure? { c with scanFirstCarrier := 7, scanLastCarrier := 6 } = some 2
       ∧ joinFailure? { c with scanFirstSlot := 15, scanLastSlot := 14 } = some 3
       ∧ joinFailure? { c with takeTimeout := 11, lead := 12 } = some 4
       ∧ joinFailure? { c with offerWindow := 12, lead := 12 } = some 5
       ∧ joinFailure? { c with takeTimeout := 10, offerWindow := 11, lead := 12 } = none)
    ∧ (0 ≤ 7 ∧ 15 < 16 ∧ 7 ≤ 7 ∧ 0 < 1) := by decide

theorem witness_LeaveAndRestart :
    (station .active).sc.station = .active ∧ (station .listening).sc.station = .listening
    ∧ (station .draining).sc.station = .draining ∧ (station .unconfigured).sc.station = .unconfigured
    ∧ (station .active).sc.station ≠ .unconfigured := by decide

theorem witness_PageClearAndLocate_page :
    (5 : Handset) ≠ 0 ∧ (station .draining).sc.station ≠ .active
    ∧ (station .active).find? 5 = none
    ∧ ((holding talking (station .active)).find? 5 = some (0, handset5 talking) ∧ (handset5 talking).engaged = true)
    ∧ ((holding (.idle 0) (station .active)).find? 5 = some (0, handset5 (.idle 0)) ∧ (handset5 (.idle 0)).engaged = false
      ∧ (holding (.idle 0) (station .active)).page? 5 = none
      ∧ (holding (.idle 0) (station .active)).cc.pages.length < 8)
    ∧ (paging 9 (holding (.idle 0) (station .active))).page? 5 = some (page5 9)
    ∧ (let c := { CallControl.reset with pages := List.replicate 8 { page5 9 with handset := 6 } }
       let s := { holding (.idle 0) (station .active) with cc := c }
       s.page? 5 = none ∧ 8 ≤ s.cc.pages.length ∧ s.find? 5 = some (0, handset5 (.idle 0))) := by decide +kernel

theorem witness_PageClearAndLocate_clear :
    (station .listening).serving = false
    ∧ ((station .draining).serving = true ∧ (station .draining).find? 5 = none)
    ∧ ((holding departing (station .active)).find? 5 = some (0, handset5 departing) ∧ (handset5 departing).isLeaving = true)
    ∧ ((takingIn .reserved).find? 5 = some (0, handset5 (.arriving cell73 3081))
      ∧ (handset5 (.arriving cell73 3081)).isArriving = true)
    ∧ ((holding (.idle 0) (station .active)).find? 5 = some (0, handset5 (.idle 0)) ∧ (handset5 (.idle 0)).isIdle = true)
    ∧ (holding talking (station .active)).find? 5 = some (0, handset5 talking)
    ∧ (holding (.setup cell73 77 Link.fresh) (station .active)).find? 5
        = some (0, handset5 (.setup cell73 77 Link.fresh)) := by decide +kernel

theorem witness_PageClearAndLocate_locate :
    let s := station .active
    let used : Option FindRecord := some { find5 6 none with handset := 6 }
    (s.sc.station = .active ∧ s.find? 5 = none ∧ s.findFor 5 = none ∧ s.freeFind = some 0 ∧ s.admits (s.findNotice 5) = true)
    ∧ (s.setFind 3 (some (find5 6 none))).findFor 5 ≠ none
    ∧ ((((s.setFind 0 used).setFind 1 used).setFind 2 used).setFind 3 used).freeFind = none
    ∧ (queueOf 14 s).admits ((queueOf 14 s).findNotice 5) = false
    ∧ (holding talking s).find? 5 = some (0, handset5 talking) := by decide +kernel

theorem witness_ReadsReportTheState :
    (holding talking (station .active)).find? 5 = some (0, handset5 talking)
    ∧ ((hearing5 0 (station .active)).find? 5 = none ∧ (hearing5 0 (station .active)).overheard? 5 = some (heard 0))
    ∧ ((station .active).find? 5 = none ∧ (station .active).overheard? 5 = none)
    ∧ 64 ≤ (64#8).toNat
    ∧ ((63#8).toNat < 64 ∧ (station .active).entry? (63#8).toNat = none)
    ∧ (holding talking (station .active)).entry? (0#8).toNat = some (handset5 talking) := by decide +kernel

theorem witness_HostRecordsAreLaidOut :
    (handset5 (.idle 7)).phase = .idle 7 ∧ (handset5 (.setup cell73 77 Link.fresh)).phase = .setup cell73 77 Link.fresh
    ∧ (handset5 talking).phase = .inCall cell73 3081 Link.fresh ∧ (handset5 departing).phase = .leaving cell73 3081 Link.fresh
    ∧ (handset5 (.arriving cell73 3081)).phase = .arriving cell73 3081
    ∧ [Tally.attachGranted, .attachDenied][1]? = some .attachDenied
    ∧ (let o := leavingBy (.asking [candidate14] 14 22 4)
       ((some o).map (·.phase.candidates)).getD [] = [candidate14]) := by decide

/-- An event of a kind. -/
def event (k : EventKind) : EventRecord :=
  { kind := k, handset := 5, other := 0, tag := 0, reason := .none, mark := 10, lost := 0 }

theorem witness_EventsAreQueuedAndRead :
    (let h := { HostLink.reset with events := List.replicate 31 (event .callUp) }
     h.events.length < 32)
    ∧ (let before := [event .callUp]
       let h := { HostLink.reset with events := before ++ event .attached :: List.replicate 30 (event .callUp) }
       32 ≤ h.events.length ∧ 2 ≤ (event .callLost).level ∧ (event .attached).level = 1 ∧ ∀ y ∈ before, y.level ≠ 1)
    ∧ (let h := { HostLink.reset with events := List.replicate 32 (event .callUp) }
       32 ≤ h.events.length ∧ (event .attached).level ≤ 1 ∧ ∀ y ∈ h.events, y.level ≠ 1)
    ∧ (let before := [event .callUp]
       let after := [event .callLost, event .attached]
       (∀ y ∈ before, y.level < (event .callLost).level) ∧ ∀ y ∈ after, y.level ≤ (event .callLost).level)
    ∧ (station .active).hl.events = [] := by decide +kernel

theorem witness_TalliesAndEmptyTransactions : 14 ≤ (14#8).toNat ∧ 14 ≤ (255#8).toNat ∧ 0 < 64 ∧ 63 < 64 := by decide

theorem witness_TalliesAndEmptyTransactions_bytes :
    (List.replicate 63 (5#8)).length < 64 ∧ (List.replicate 64 (5#8)).length = 64 ∧ 58 ≤ (List.replicate 58 (5#8)).length
    ∧ (64 ≤ (1#8 :: List.replicate 63 0).length ∧ (1#8 :: List.replicate 63 0)[0]? = some 1
      ∧ (1#8 :: List.replicate 63 0)[35]? = some 0) := by decide +kernel

theorem witness_OnlyContradictoryOperandsStop :
    Instr.nullCommand.wellFormed = true ∧ (Instr.undefinedCommand 14).wellFormed = true
    ∧ (Instr.undefinedCommand 13).wellFormed = false ∧ (Instr.undefinedCommand 0).wellFormed = false
    ∧ (Instr.incompleteTransaction 63).wellFormed = true ∧ (Instr.incompleteTransaction 64).wellFormed = false := by decide

theorem witness_NoticesAreLaidOutAndReadBack :
    ({ noticeFrom9 (.offer 255 1008 15) with sender := 48, dest := 63 } : Notice).Fits
    ∧ ({ noticeFrom9 (.seek 0 { slot := 15, carrier := 7 } 1023) with sender := 1, dest := 0 } : Notice).Fits :=
  ⟨⟨by decide, by decide, ⟨by decide, by decide⟩⟩, ⟨by decide, by decide, ⟨⟨by decide, by decide⟩, by decide⟩⟩⟩

theorem witness_NoticesAreLaidOutAndReadBack_received :
    (let n := noticeFrom9 (.find 4)
     Notice.decode n.encode = some n ∧ n.encode.extractLsb' 108 4 = 8)
    ∧ (let n := noticeFrom9 (.take 255 { slot := 15, carrier := 7 })
       Notice.decode n.encode = some n ∧ n.encode.extractLsb' 108 4 = 1 ∧ n.encode.extractLsb' 40 8 = 255)
    ∧ Notice.decode (checked (9#4 ++ 1#6 ++ 0#86)) = none ∧ Notice.decode (checked (0#4 ++ 48#6 ++ 0#86)) = none := by
  decide +kernel

/-! ### The invariants hold of a station that serves, and it takes a step -/

/-- Station 3, ACTIVE, that has overheard handset 5 and is asked for its status. -/
def running : State := { hearing5 0 (station .active) with pending := [.readStatus] }

theorem running_steps : ∃ t, step running = .next t := ⟨_, rfl⟩

theorem witness_EveryStepKeepsCapacities : running.WithinCapacity ∧ ∃ t, step running = .next t where
  left :=
    { changes := by decide, beaconQ := by decide, overheard := by decide, listens := by decide, pages := by decide
      queue := by decide, rx := by decide, events := by decide, lost := by decide
      candidates := fun r o h => absurd ((allFree_replicate (α := OutRecord) 4 r).symm.trans h) (by simp) }
  right := running_steps

/-- Station 3 with handset 5 in a call that it hands out, its MOVE standing and its slot to be HELD at mark 22. -/
def switching : State :=
  { ((((holding departing (station .active)).writeSlot 7 (.bearer 3 5)).admitChange (hold7 22)).setOut 0
      (some (leavingBy (.switching 9 22 cell73)))).setMove
        { slot := 7, handset := 5, target := 9, newCell := cell73, switchMark := 22 } with pending := [.readStatus] }

theorem switching_entry {i : Nat} {e : Entry} (h : switching.entry? i = some e) : i = 0 ∧ e = handset5 departing := by
  have g : switching.entry? i = ((station .active).setEntry 0 (some (handset5 departing))).entry? i := rfl
  rw [g, State.entry?_setEntry, entry?_station] at h
  split at h
  · rename_i k
    cases h
    exact ⟨k.1, rfl⟩
  · cases h

theorem switching_out {r : Nat} {o : OutRecord} (h : switching.outRecord? r = some o) :
    r = 0 ∧ o = leavingBy (.switching 9 22 cell73) := by
  have g : switching.outRecord? r =
      ((station .active).setOut 0 (some (leavingBy (.switching 9 22 cell73)))).outRecord? r := rfl
  rw [g, State.outRecord?_setOut, show (station .active).outRecord? r = none from allFree_replicate (α := OutRecord) 4 r] at h
  split at h
  · rename_i k
    cases h
    exact ⟨k.1, rfl⟩
  · cases h

theorem switching_in (r : Nat) : switching.inRecord? r = none := allFree_replicate (α := InRecord) 4 r

theorem switching_matches : switching.RecordsMatch where
  slots := by
    rintro i e c h g
    obtain ⟨rfl, rfl⟩ := switching_entry h
    cases g
    decide +kernel
  changes := by
    intro c hc
    obtain rfl : c = hold7 22 := List.mem_singleton.1 hc
    exact ⟨by decide, 5, by decide +kernel, rfl⟩
  setups := by rintro r ⟨⟩
  setupsOnce := List.nodup_nil
  outbound := by
    rintro r o h
    obtain ⟨rfl, rfl⟩ := switching_out h
    exact ⟨handset5 departing, by decide +kernel, by decide, by decide⟩
  outboundOnce := by
    rintro r q o p h g -
    rw [(switching_out h).1, (switching_out g).1]
  inbound := by
    rintro r o h
    rw [switching_in] at h
    cases h
  inboundOnce := by
    rintro r q o p h
    rw [switching_in] at h
    cases h
  moves := by
    intro m hm
    obtain rfl := List.mem_singleton.1 hm
    exact ⟨0, leavingBy (.switching 9 22 cell73), handset5 departing, cell73, 9, 22, cell73, by decide +kernel, rfl,
      by decide +kernel, rfl, rfl⟩
  movesOnce := by decide +kernel

theorem switching_apart : switching.HandsetsApart where
  table := by
    rintro i j e f h g -
    rw [(switching_entry h).1, (switching_entry g).1]
  overheard := List.nodup_nil
  apart := by rintro i e o - ⟨⟩

theorem witness_EveryStepKeepsCapacities_records : switching.RecordsMatch ∧ switching.HandsetsApart :=
  ⟨switching_matches, switching_apart⟩

theorem witness_EveryStepKeepsRecordsMatched :
    switching.RecordsMatch ∧ switching.HandsetsApart ∧ switching.LevelsInRange ∧ ∃ t, step switching = .next t :=
  ⟨switching_matches, switching_apart,
    { config := inRange_station .active
      map := by
        intro c
        show ((Vector.replicate 120 Config.worstCell)[mapPlace c]?).getD Config.worstCell ≤ Config.worstCell
        by_cases h : mapPlace c < 120 <;> simp [h]
      overheard := by rintro o ⟨⟩
      table := by
        rintro i e h
        obtain ⟨-, rfl⟩ := switching_entry h
        decide },
    ⟨_, rfl⟩⟩

theorem witness_EveryStepKeepsTheMarkSafe :
    running.MarkSafe ∧ (unsure running).MarkSafe ∧ (unsure running).tb.known = false ∧ ∃ t, step (unsure running) = .next t :=
  ⟨fun h => absurd h (by decide), fun _ => ⟨rfl, rfl, allFree_replicate 4, allFree_replicate 4⟩, rfl, ⟨_, rfl⟩⟩

theorem witness_EveryStepKeepsHandsetsApart : running.HandsetsApart ∧ ∃ t, step running = .next t where
  left :=
    { table := fun i _ e _ h _ _ => absurd ((entry?_station .active i).symm.trans h) (by simp)
      overheard := by decide
      apart := fun i e _ h _ => absurd ((entry?_station .active i).symm.trans h) (by simp) }
  right := running_steps

theorem witness_EveryStepKeepsServiceSafe :
    running.ServiceSafe ∧ (station .listening).ServiceSafe ∧ (station .listening).serving = false
    ∧ ∃ t, step (station .listening) = .next t :=
  ⟨fun h => absurd h (by decide), fun _ => empty_station .listening, by decide, ⟨_, rfl⟩⟩

theorem witness_EveryStepKeepsLevelsInRange : running.LevelsInRange ∧ ∃ t, step running = .next t where
  left :=
    { config := inRange_station .active
      map := by
        intro c
        show ((Vector.replicate 120 Config.worstCell)[mapPlace c]?).getD Config.worstCell ≤ Config.worstCell
        by_cases h : mapPlace c < 120 <;> simp [h]
      overheard := by decide
      table := fun i e h => absurd ((entry?_station .active i).symm.trans h) (by simp) }
  right := running_steps

end Sys2Proof.Tests
end

section
/-! What commands hold anew, they hold against a known mark: one lemma for each operation that takes part in a command, composed
by transitivity; from these, that every step keeps MarkSafe. -/
namespace Sys2Proof.Machine

/-! ### The relation -/

/-- The Time Base stays, and a plan change, targeted listen or handover record that t holds and s did not is held against a
known mark. -/
def State.AddsByMark (s t : State) : Prop := t.tb = s.tb ∧ (s.tb.known = false → s.NoNew t)

theorem State.AddsByMark.refl (s : State) : s.AddsByMark s := ⟨rfl, fun _ => State.NoNew.refl s⟩

theorem State.AddsByMark.trans {s t u : State} (h : s.AddsByMark t) (g : t.AddsByMark u) : s.AddsByMark u :=
  ⟨g.1.trans h.1, fun k => (h.2 k).trans (g.2 (h.1 ▸ k))⟩

/-- An operation that adds nothing at all. -/
theorem State.NoNew.byMark {s t : State} (n : s.NoNew t) (h : t.tb = s.tb) : s.AddsByMark t := ⟨h, fun _ => n⟩

/-- An operation that runs only while the mark is known. -/
theorem State.AddsByMark.of_known {s t : State} (h : t.tb = s.tb) (k : s.tb.known = true) : s.AddsByMark t :=
  ⟨h, fun g => absurd (g.symm.trans k) (by simp)⟩

/-- An operation that leaves the Time Base and the four collections as they are. -/
theorem State.AddsByMark.of_eq {s t : State} (h : t.tb = s.tb) (h1 : t.sp.changes = s.sp.changes)
    (h2 : t.mu.listens = s.mu.listens) (h3 : t.he = s.he) : s.AddsByMark t := (State.NoNew.of_eq h1 h2 h3).byMark h

/-- A state that holds nothing with a mark is safe. -/
theorem State.markSafe_of_empty {s : State} (h1 : s.sp.changes = []) (h2 : s.mu.listens = [])
    (h3 : ∀ r, s.outRecord? r = none) (h4 : ∀ r, s.inRecord? r = none) : s.MarkSafe := fun _ => ⟨h1, h2, h3, h4⟩

/-- Where nothing is held against an unknown mark, nothing is after an operation that adds nothing. -/
theorem State.NoNew.markSafe {s t : State} (n : s.NoNew t) (h : t.tb.known = s.tb.known) (g : s.MarkSafe) : t.MarkSafe := by
  intro k
  obtain ⟨g1, g2, g3, g4⟩ := g (h ▸ k)
  exact ⟨List.subset_nil.mp (g1 ▸ n.changes), List.subset_nil.mp (g2 ▸ n.listens), fun r => n.outbound r (g3 r),
    fun r => n.inbound r (g4 r)⟩

theorem State.AddsByMark.markSafe {s t : State} (h : s.AddsByMark t) (g : s.MarkSafe) : t.MarkSafe := by
  intro k
  have u : s.tb.known = false := h.1 ▸ k
  exact (h.2 u).markSafe (by rw [h.1]) g k

/-- A piece of a strobe's or a sync loss's work that keeps the Time Base. -/
theorem State.Kept.byMark {s t : State} (h : s.Kept t) (n : s.NoNew t) : s.AddsByMark t := n.byMark h.2

/-! ### The shared operations -/

theorem State.noNew_offerBeacon (s : State) (m : Downlink) : s.NoNew (s.offerBeacon m) := by
  refine .of_eq ?_ (by simp) (by simp)
  obtain ⟨-, h⟩ | ⟨-, h⟩ := s.offerBeacon_cases m <;> rw [h]

theorem State.noNew_grant (s : State) (h : Handset) : s.NoNew (s.grant h) := by
  unfold State.grant
  split
  · exact (s.noNew_offerBeacon _).trans (State.noNew_count _ _)
  · exact s.noNew_count _

theorem State.noNew_denyAttach (s : State) (h : Handset) (r : DenyReason) : s.NoNew (s.denyAttach h r) :=
  (s.noNew_offerBeacon _).trans (State.noNew_count _ _)

theorem State.noNew_endListensFor (s : State) (h : Handset) : s.NoNew (s.endListensFor h) :=
  ⟨fun _ x => x, List.filter_subset_self _, fun _ x => x, fun _ x => x⟩

theorem State.noNew_endDueListens (s : State) : s.NoNew s.endDueListens :=
  ⟨fun _ x => x, List.filter_subset_self _, fun _ x => x, fun _ x => x⟩

theorem State.noNew_applyDueChanges (s : State) : s.NoNew s.applyDueChanges :=
  ⟨List.filter_subset_self _, fun _ x => x, fun _ x => x, fun _ x => x⟩

theorem State.noNew_offerClaim (s : State) (i : Nat) : s.NoNew (s.offerClaim i) := .of_eq (by simp) (by simp) (by simp)

theorem State.noNew_becomesHeld (s : State) (h : Handset) : s.NoNew (s.becomesHeld h) :=
  State.NoNew.trans (t := s.removeOverheard h) (.of_eq rfl rfl rfl) (State.noNew_endListensFor _ _)

theorem State.byMark_drainTest (s : State) : s.AddsByMark s.drainTest := s.kept_drainTest.byMark s.noNew_drainTest

theorem State.byMark_offer (s : State) (n : Notice) : s.AddsByMark (s.offer n) := (s.noNew_offer n).byMark (by simp)

/-- A selection and its commits write the slot plan and the allocation cursor. -/
theorem byMark_selectCommit (h : Handset) (n : Nat) (s : State) : s.AddsByMark (selectCommit h n s).2 := by
  induction n generalizing s with
  | zero => exact State.AddsByMark.refl s
  | succ n ih =>
    have moved : ∀ c, s.AddsByMark (s.moveCursor c) := fun c => .of_eq rfl rfl rfl rfl
    unfold selectCommit
    split
    · exact State.AddsByMark.refl s
    · split
      · exact (moved _).trans ((State.noNew_writeSlot _ _ _).byMark (by simp))
      · exact (moved _).trans (ih _)

theorem byMark_of_selectCommit {h : Handset} {n : Nat} {s t : State} {o : Option Cell} (g : selectCommit h n s = (o, t)) :
    s.AddsByMark t := by
  have := byMark_selectCommit h n s
  rwa [g] at this

/-! ### Registration (chapter 5) -/

theorem State.byMark_attachNew (s : State) (h : Handset) (epoch : BitVec 8) (l : Nat) : s.AddsByMark (s.attachNew h epoch l) := by
  unfold State.attachNew
  split
  · exact State.NoNew.byMark (((((s.noNew_setEntry _ _).trans (State.noNew_becomesHeld _ _)).trans (State.noNew_grant _ _)).trans
      (State.noNew_offerClaim _ _)).trans (State.noNew_post _ _ _ _ _ _)) (by simp)
  · exact (s.noNew_denyAttach _ _).byMark (by simp)

theorem State.byMark_endTenure (s : State) (i : Nat) (e : Entry) : s.AddsByMark (s.endTenure i e) := by
  unfold State.endTenure
  split
  · exact State.NoNew.byMark ((s.noNew_releaseCall i e).trans (State.noNew_callLost _ _ _ _)) (by simp)
  · exact State.AddsByMark.refl s

theorem State.byMark_newTenure (s : State) (i : Nat) (e : Entry) (epoch : BitVec 8) (l : Nat) :
    s.AddsByMark (s.newTenure i e epoch l) :=
  (s.byMark_endTenure i e).trans (State.NoNew.byMark (((((State.noNew_removePage _ _).trans (State.noNew_modifyEntry _ _ _)).trans
    (State.noNew_grant _ _)).trans (State.noNew_offerClaim _ _)).trans (State.noNew_post _ _ _ _ _ _))
      (by simp [State.newTenure]))

theorem State.byMark_takeAttach (s : State) (h : Handset) (epoch : BitVec 8) (l : Nat) :
    s.AddsByMark (s.takeAttach h epoch l) := by
  have denied : ∀ r, s.AddsByMark (s.denyAttach h r) := fun r => (s.noNew_denyAttach h r).byMark (by simp)
  unfold State.takeAttach
  split
  · exact denied _
  · split
    · exact s.byMark_attachNew _ _ _
    · split
      · exact (s.noNew_grant h).byMark (by simp)
      · split
        · exact s.byMark_newTenure _ _ _ _
        · exact denied _

theorem State.byMark_hearUplink (s : State) (h : Handset) (l : Nat) : s.AddsByMark (s.hearUplink h l) :=
  .of_eq (by simp) (by simp) (by simp) (by simp)

theorem State.byMark_takePresence (s : State) (h : Handset) (l : Nat) : s.AddsByMark (s.takePresence h l) := by
  unfold State.takePresence
  split
  · exact .of_eq (by simp) (by simp) (by simp) (by simp)
  · exact (s.noNew_denyAttach _ _).byMark (by simp)

theorem State.byMark_supersede (s : State) (n : Notice) : s.AddsByMark (s.supersede n) := by
  have posted : ∀ (k : EventKind) (h : Handset) (o : Nat) (t : Tag) (r : Reason), s.AddsByMark (s.post k h o t r) :=
    fun k h o t r => (s.noNew_post k h o t r).byMark (by simp)
  unfold State.supersede
  split
  · exact State.AddsByMark.refl s
  · rename_i i e _
    split
    · unfold State.supersedeEntry
      split
      · exact (State.NoNew.byMark (((s.noNew_releaseCall i e).trans (State.noNew_freeEntry _ _)).trans
          (State.noNew_post _ _ _ _ _ _)) (by simp)).trans (State.byMark_drainTest _)
      · exact State.NoNew.byMark ((s.noNew_freeEntry i).trans (State.noNew_post _ _ _ _ _ _)) (by simp)
    · exact posted _ _ _ _ _
    · exact posted _ _ _ _ _
    · unfold State.correct
      split
      case h_4 | h_5 => exact State.AddsByMark.refl s
      all_goals exact (s.noNew_offerClaim i).byMark (by simp)

theorem State.byMark_takeClaim (s : State) (n : Notice) : s.AddsByMark (s.takeClaim n) := by
  unfold State.takeClaim
  split
  · exact State.AddsByMark.trans (State.NoNew.byMark (((((s.noNew_freeBearer _).trans (State.noNew_post _ _ _ _ _ _)).trans
      (State.noNew_count _ _)).trans (State.noNew_freeEntry _ _)).trans (State.noNew_setOut _ _ _ fun _ => rfl)) (by simp))
      (State.byMark_drainTest _)
  · exact s.byMark_supersede n

/-! ### Calls (chapter 6) -/

theorem State.byMark_offerBeacon (s : State) (m : Downlink) : s.AddsByMark (s.offerBeacon m) :=
  (s.noNew_offerBeacon m).byMark (by simp)

theorem State.byMark_denyCall (s : State) (h : Handset) (r : DenyReason) : s.AddsByMark (s.denyCall h r) :=
  s.byMark_offerBeacon _

theorem State.byMark_pageFails (s : State) (h : Handset) (r : Reason) : s.AddsByMark (s.pageFails h r) :=
  (s.noNew_pageFails h r).byMark (by simp)

theorem State.byMark_removePage (s : State) (h : Handset) : s.AddsByMark (s.removePage h) := .of_eq rfl rfl rfl rfl

theorem State.byMark_beginSetup (s : State) (i : Nat) (h : Handset) (c : Cell) (tag : Tag) :
    s.AddsByMark (s.beginSetup i h c tag) := by
  unfold State.beginSetup
  refine State.AddsByMark.trans (.of_eq ?_ ?_ ?_ ?_) (State.byMark_offerBeacon _ _) <;> simp

theorem State.byMark_setUpCall (s : State) (i : Nat) (h : Handset) : s.AddsByMark (s.setUpCall i h) := by
  unfold State.setUpCall
  split
  · rename_i t g
    exact (byMark_of_selectCommit g).trans (t.byMark_denyCall _ _)
  · rename_i c t g
    refine (byMark_of_selectCommit g).trans ?_
    split
    · exact (t.byMark_removePage _).trans (State.byMark_beginSetup _ _ _ _ _)
    · exact State.AddsByMark.trans (t := t.advanceTag) (.of_eq rfl rfl rfl rfl) (State.byMark_beginSetup _ _ _ _ _)

theorem State.byMark_takeCall (s : State) (h : Handset) : s.AddsByMark (s.takeCall h) := by
  unfold State.takeCall
  split
  · exact (s.byMark_denyCall _ _).trans (State.byMark_pageFails _ _ _)
  · split
    · exact s.byMark_denyCall _ _
    · split
      · exact s.byMark_denyCall _ _
      · exact s.byMark_setUpCall _ _

theorem State.byMark_setUpReply (s : State) (i : Nat) (h : Handset) (tag : Tag) : s.AddsByMark (s.setUpReply i h tag) := by
  unfold State.setUpReply
  split
  · rename_i t g
    exact (byMark_of_selectCommit g).trans (t.byMark_denyCall _ _)
  · rename_i c t g
    exact ((byMark_of_selectCommit g).trans (t.byMark_removePage _)).trans (State.byMark_beginSetup _ _ _ _ _)

theorem State.byMark_takePageReply (s : State) (h : Handset) (tag : Tag) : s.AddsByMark (s.takePageReply h tag) := by
  unfold State.takePageReply
  split
  · exact (s.byMark_denyCall _ _).trans (State.byMark_pageFails _ _ _)
  · split
    · exact s.byMark_denyCall _ _
    · split
      · exact s.byMark_denyCall _ _
      · split
        · exact s.byMark_denyCall _ _
        · split
          · exact State.AddsByMark.refl s
          · exact s.byMark_setUpReply _ _ _

theorem State.byMark_clearTheCall (s : State) (i : Nat) (e : Entry) (reason : Reason) :
    s.AddsByMark (s.clearTheCall i e reason) :=
  (State.NoNew.byMark (((s.noNew_releaseCall i e).trans (State.noNew_modifyEntry _ _ _)).trans (State.noNew_post _ _ _ _ _ _))
    (by simp)).trans (State.byMark_drainTest _)

theorem State.byMark_dropCall (s : State) (i : Nat) (e : Entry) : s.AddsByMark (s.dropCall i e) :=
  (State.NoNew.byMark (((s.noNew_releaseCall i e).trans (State.noNew_modifyEntry _ _ _)).trans (State.noNew_callLost _ _ _ _))
    (by simp)).trans (State.byMark_drainTest _)

theorem State.byMark_callUp (s : State) (i : Nat) (e : Entry) (c : Cell) (t : Tag) (k : Link) :
    s.AddsByMark (s.callUp i e c t k) := .of_eq (by simp) (by simp) (by simp) (by simp)

theorem State.byMark_callTakesReport (s : State) (i : Nat) (r : LinkReport) : s.AddsByMark (s.callTakesReport i r) := by
  unfold State.callTakesReport
  split
  · split
    · split
      · split
        · exact s.byMark_clearTheCall _ _ _
        · exact s.byMark_callUp _ _ _ _ _
      · exact State.AddsByMark.refl s
    · split
      · exact s.byMark_clearTheCall _ _ _
      · split
        · exact s.byMark_dropCall _ _
        · exact State.AddsByMark.refl s
    · split
      · exact s.byMark_clearTheCall _ _ _
      · exact State.AddsByMark.refl s
    · exact State.AddsByMark.refl s
    · exact State.AddsByMark.refl s
  · exact State.AddsByMark.refl s

/-! ### Handover (chapters 8 and 9) -/

/-- R47: a fire wants a known mark. -/
theorem State.fireKind?_known {s : State} {e : Entry} {k : FireKind} (h : s.fireKind? e = some k) : s.tb.known = true := by
  unfold State.fireKind? at h
  cases g : s.tb.known
  · simp [g] at h
  · rfl

theorem State.byMark_trigger (s : State) (i : Nat) : s.AddsByMark (s.trigger i) := by
  refine ⟨by simp, fun u => ?_⟩
  unfold State.trigger
  split
  · split
    · rename_i g _
      exact absurd (State.fireKind?_known g) (by simp [u])
    all_goals exact State.NoNew.refl s
  · exact State.NoNew.refl s

theorem State.byMark_testTrigger (s : State) (i : Nat) : s.AddsByMark (s.testTrigger i) :=
  State.AddsByMark.trans ((s.noNew_modifyEntry i _).byMark (by simp)) (State.byMark_trigger _ _)

theorem State.byMark_arrive (s : State) (r i : Nat) (o : InRecord) (e : Entry) (c : Cell) (t : Tag) :
    s.AddsByMark (s.arrive r i o e c t) :=
  State.NoNew.byMark (((((s.noNew_setEntry _ _).trans (State.noNew_offerClaim _ _)).trans (State.noNew_post _ _ _ _ _ _)).trans
    (State.noNew_count _ _)).trans (State.noNew_setIn _ _ _ fun _ => rfl)) (by simp)

theorem State.byMark_returnToOld (s : State) (r : Nat) (o : OutRecord) (e : Entry) (target : Nat) :
    s.AddsByMark (s.returnToOld r o e target) := by
  unfold State.returnToOld
  split
  · refine State.NoNew.byMark (State.NoNew.trans (.of_eq ?_ ?_ ?_) (State.noNew_failAttempt _ _ _ _)) ?_ <;> simp
  all_goals exact State.AddsByMark.refl s

/-- A record found for a handset and a seek number is written again: nothing new is held. -/
theorem State.byMark_setOut_outFor? {s : State} {h : Handset} {k : BitVec 8} {r : Nat} {o p : OutRecord}
    (g : s.outFor? h k = some (r, o)) : s.AddsByMark (s.setOut r (some p)) :=
  State.NoNew.byMark (s.noNew_setOut r _ fun f => absurd (f.symm.trans (State.outFor?_some g).1) (by simp)) (by simp)

theorem State.byMark_takeOffer (s : State) (n : Notice) (seek : BitVec 8) (merit freeSlots : Nat) :
    s.AddsByMark (s.takeOffer n seek merit freeSlots) := by
  unfold State.takeOffer
  split
  · rename_i g
    split
    · exact State.byMark_setOut_outFor? g
    all_goals exact State.AddsByMark.refl s
  · exact State.AddsByMark.refl s

theorem State.byMark_takeDecline (s : State) (n : Notice) (seek : BitVec 8) (reason : DeclineReason) :
    s.AddsByMark (s.takeDecline n seek reason) := by
  unfold State.takeDecline
  split
  · split
    · split
      · exact (s.kept_nextCandidate _ _).byMark (s.noNew_nextCandidate _ _)
      · exact State.AddsByMark.refl s
    all_goals exact State.AddsByMark.refl s
  · exact State.AddsByMark.refl s

/-- R135, R136: with the mark unknown a TAKE is late. -/
theorem State.byMark_actOnTake (s : State) (r : Nat) (o : OutRecord) (target : Nat) (m : Mark) (c : Cell) :
    s.AddsByMark (s.actOnTake r o target m c) := by
  refine ⟨by simp, fun u => ?_⟩
  unfold State.actOnTake
  split
  · split
    · simp only [TimeBase.within_unknown s.tb m 1 128 u, Bool.false_and, Bool.false_eq_true, if_false]
      exact s.noNew_failAttempt _ _ _
    all_goals exact State.NoNew.refl s
  · exact State.NoNew.refl s

theorem State.byMark_takeTake (s : State) (n : Notice) (seek : BitVec 8) (c : Cell) : s.AddsByMark (s.takeTake n seek c) := by
  unfold State.takeTake
  split
  · split
    · split
      · exact s.byMark_actOnTake _ _ _ _ _
      · exact State.AddsByMark.refl s
    all_goals exact State.AddsByMark.refl s
  · exact State.AddsByMark.refl s

/-- R151: a TRANSFER that no check refuses comes while the mark is known. -/
theorem State.transferRefusal?_none {s : State} {n : Notice} (h : s.transferRefusal? n = none) : s.tb.known = true := by
  unfold State.transferRefusal? at h
  by_contra g
  simp only [Bool.not_eq_true] at g
  simp only [g, Bool.not_false, if_true] at h
  split at h <;> simp at h

theorem State.byMark_takeTransfer (s : State) (n : Notice) (seek : BitVec 8) (tag : Tag) :
    s.AddsByMark (s.takeTransfer n seek tag) := by
  cases g : s.transferRefusal? n with
  | none => exact .of_known (by simp) (State.transferRefusal?_none g)
  | some reason =>
    unfold State.takeTransfer
    simp only [g]
    exact s.byMark_offer _

/-- R148: with the mark unknown a SEEK is set aside. -/
theorem State.byMark_takeSeek (s : State) (n : Notice) (seek : BitVec 8) (c : Cell) : s.AddsByMark (s.takeSeek n seek c) := by
  refine ⟨by simp, fun u => ?_⟩
  have closed : s.seekOpen n.handset n.mark = false := by simp [State.seekOpen, u]
  unfold State.takeSeek
  simp only [closed, Bool.false_eq_true, if_false]
  exact State.NoNew.refl s

theorem State.byMark_hearing (s : State) (h : Handset) (l : Nat) (c : Cell) : s.AddsByMark (s.hearing h l c) := by
  unfold State.hearing
  split
  · exact State.AddsByMark.refl s
  · refine State.AddsByMark.trans (t := (s.recordHearing h l c).endListensFor h) ?_ (.of_eq ?_ ?_ ?_ ?_)
    · exact State.NoNew.byMark (State.NoNew.trans (t := s.recordHearing h l c) (.of_eq rfl rfl rfl)
        (State.noNew_endListensFor _ _)) (by simp)
    all_goals simp

/-! ### Burst reports (chapter 2) -/

theorem State.byMark_markReported (s : State) (slot : Nat) : s.AddsByMark (s.markReported slot) := .of_eq rfl rfl rfl rfl

theorem State.byMark_listenBurst (s : State) (b : Burst) : s.AddsByMark (s.listenBurst b) := by
  unfold State.listenBurst
  split
  · split
    · refine (s.byMark_markReported b.slot).trans ?_
      unfold State.routeListen State.takeListen
      have fed : ∀ (t : State) (c : Cell) (l : Nat), t.AddsByMark (t.feedMap c l) := fun t c l => .of_eq rfl rfl rfl rfl
      split
      · split
        · exact (fed _ _ _).trans (State.byMark_hearing _ _ _ _)
        · exact fed _ _ _
      · exact State.AddsByMark.refl _
    · exact State.AddsByMark.refl s
  all_goals exact State.AddsByMark.refl s

theorem State.byMark_takeUplink (s : State) (b : Burst) (h : Handset) (u : Uplink) : s.AddsByMark (s.takeUplink b h u) := by
  cases u with
  | attach epoch target =>
    unfold State.takeUplink
    dsimp only
    split
    · exact s.byMark_takeAttach _ _ _
    · exact s.byMark_hearing _ _ _
  | presence => exact s.byMark_takePresence _ _
  | call => exact (s.byMark_hearUplink _ _).trans (State.byMark_takeCall _ _)
  | pageReply tag => exact (s.byMark_hearUplink _ _).trans (State.byMark_takePageReply _ _ _)

theorem State.byMark_beaconBurst (s : State) (k : UplinkKind) (b : Burst) : s.AddsByMark (s.beaconBurst k b) := by
  unfold State.beaconBurst
  split
  · split
    · refine (s.byMark_markReported b.slot).trans ?_
      unfold State.routeUplink
      split
      · split
        · exact State.byMark_takeUplink _ _ _ _
        all_goals exact State.AddsByMark.refl _
      · exact State.AddsByMark.refl _
    · exact State.AddsByMark.refl s
  all_goals exact State.AddsByMark.refl s

theorem State.byMark_measure (s : State) (i : Nat) (r : LinkReport) : s.AddsByMark (s.measure i r) :=
  .of_eq (by simp) (by simp) (by simp) (by simp)

theorem State.byMark_tryArrival (s : State) (i : Nat) (e : Entry) (c : Cell) (t : Tag) : s.AddsByMark (s.tryArrival i e c t) := by
  unfold State.tryArrival
  split
  · split
    · split
      · exact s.byMark_arrive _ _ _ _ _ _
      · exact State.AddsByMark.refl s
    · exact State.AddsByMark.refl s
  · exact State.AddsByMark.refl s

theorem State.byMark_handoverTakesReport (s : State) (i : Nat) (r : LinkReport) : s.AddsByMark (s.handoverTakesReport i r) := by
  unfold State.handoverTakesReport
  split
  · split
    · exact s.byMark_testTrigger _
    · split
      · exact s.byMark_tryArrival _ _ _ _
      · exact State.AddsByMark.refl s
    all_goals exact State.AddsByMark.refl s
  · exact State.AddsByMark.refl s

theorem State.byMark_bearerBurst (s : State) (b : Burst) : s.AddsByMark (s.bearerBurst b) := by
  unfold State.bearerBurst
  split
  · split
    · refine (s.byMark_markReported b.slot).trans ?_
      unfold State.bearerFor
      split
      · split
        · exact ((State.byMark_measure _ _ _).trans (State.byMark_callTakesReport _ _ _)).trans
            (State.byMark_handoverTakesReport _ _ _)
        · exact State.AddsByMark.refl _
      · exact State.AddsByMark.refl _
    · exact State.AddsByMark.refl s
  all_goals exact State.AddsByMark.refl s

theorem State.byMark_heldTakesReport (s : State) (i : Nat) (k : LinkReport) : s.AddsByMark (s.heldTakesReport i k) := by
  unfold State.heldTakesReport
  split
  · split
    · split
      · split
        · unfold State.goodHeld
          split
          · exact s.byMark_clearTheCall _ _ _
          · exact s.byMark_returnToOld _ _ _ _
        · exact State.AddsByMark.refl s
      all_goals exact State.AddsByMark.refl s
    · exact State.AddsByMark.refl s
  all_goals exact State.AddsByMark.refl s

theorem State.byMark_heldBurst (s : State) (b : Burst) : s.AddsByMark (s.heldBurst b) := by
  unfold State.heldBurst
  split
  · split
    · refine (s.byMark_markReported b.slot).trans ?_
      unfold State.heldFor
      split
      · split
        · exact (State.byMark_measure _ _ _).trans (State.byMark_heldTakesReport _ _ _)
        · exact State.AddsByMark.refl _
      · exact State.AddsByMark.refl _
    · exact State.AddsByMark.refl s
  all_goals exact State.AddsByMark.refl s

/-! ### The bus (chapter 7) -/

theorem State.byMark_occupancyFell (s : State) : s.AddsByMark s.occupancyFell := .of_eq (by simp) (by simp) (by simp) (by simp)

theorem State.byMark_loseContention (s : State) : s.AddsByMark s.loseContention := by
  unfold State.loseContention
  dsimp only
  split
  · refine State.AddsByMark.trans ?_ (State.byMark_occupancyFell _)
    exact .of_eq rfl rfl rfl rfl
  · exact .of_eq rfl rfl rfl rfl

theorem State.byMark_finishNotice (s : State) : s.AddsByMark s.finishNotice := by
  refine State.AddsByMark.trans ?_ (State.byMark_occupancyFell _)
  exact .of_eq rfl rfl rfl rfl

theorem State.byMark_hearNotice (s : State) (length : Nat) (w : NoticeWord) : s.AddsByMark (s.hearNotice length w) := by
  have counted : ∀ (t : State) (k : Tally), t.AddsByMark (t.count k) := fun t k => .of_eq rfl rfl rfl rfl
  have another : s.AddsByMark s.heardAnother := .of_eq rfl rfl rfl rfl
  unfold State.hearNotice
  split
  · exact State.AddsByMark.refl s
  · split
    · exact State.AddsByMark.refl s
    · unfold State.hearWord
      split
      · exact counted _ _
      · split
        · exact counted _ _
        · split
          · exact counted _ _
          · split
            · exact another.trans (.of_eq (by simp) (by simp) (by simp) (by simp))
            · exact another.trans (counted _ _)

/-- A notice handed on and taken out of the queue. -/
theorem State.byMark_dispatch (s : State) (n : Notice) {t : State} (h : s.AddsByMark t) : s.AddsByMark (s.dispatch n t) := by
  have dropped : ∀ u : State, u.AddsByMark u.dropReceived := fun u => .of_eq rfl rfl rfl rfl
  unfold State.dispatch
  refine State.AddsByMark.trans ?_ (dropped _)
  split
  · exact h
  · split
    · unfold State.supersedeOnly
      split
      · exact s.byMark_supersede n
      · exact State.AddsByMark.refl s
    · exact State.AddsByMark.refl s

/-- A test between two operations: both may add by the mark alone. -/
theorem State.AddsByMark.ite {s t u : State} (b : Bool) (h : s.AddsByMark t) (g : s.AddsByMark u) :
    s.AddsByMark (if b then t else u) := by
  cases b
  · exact g
  · exact h

/-! ### The host's commands (chapters 10 and 11) -/

theorem State.byMark_respond (s : State) (r : Response) : s.AddsByMark (s.respond r) := .of_eq rfl rfl rfl rfl

theorem State.byMark_answer (s : State) (c : Byte) (r : ResponseCode) : s.AddsByMark (s.answer c r) := s.byMark_respond _

theorem State.byMark_report (s : State) (c : Byte) (b : ResponseBody) : s.AddsByMark (s.report c b) := s.byMark_respond _

/-- A command that leaves none of the four collections. -/
theorem State.AddsByMark.of_cleared {s t : State} (h : t.tb = s.tb) (h1 : t.sp.changes = []) (h2 : t.mu.listens = [])
    (h3 : allFree t.he.outbound) (h4 : allFree t.he.inbound) : s.AddsByMark t :=
  ⟨h, fun _ => ⟨by simp [h1], by simp [h2], fun r _ => h3 r, fun r _ => h4 r⟩⟩

theorem State.byMark_joinSegment (s : State) : s.AddsByMark s.joinSegment :=
  .of_cleared rfl rfl rfl (allFree_replicate 4) (allFree_replicate 4)

theorem State.byMark_restart (s : State) : s.AddsByMark s.restart :=
  .of_cleared rfl rfl rfl (allFree_replicate 4) (allFree_replicate 4)

theorem State.byMark_stopListening (s : State) : s.AddsByMark s.stopListening :=
  ⟨rfl, fun _ => ⟨fun _ h => h, List.nil_subset _, fun _ h => h, fun _ h => h⟩⟩

theorem State.byMark_startDrain (s : State) : s.AddsByMark s.startDrain := by
  refine State.AddsByMark.trans ?_ (State.byMark_drainTest _)
  exact .of_eq rfl rfl rfl rfl

theorem State.byMark_clearByHost (s : State) (i : Nat) (e : Entry) : s.AddsByMark (s.clearByHost i e) := by
  unfold State.clearByHost
  split
  case h_1 | h_2 => exact (s.byMark_clearTheCall _ _ _).trans (State.byMark_answer _ _ _)
  all_goals exact s.byMark_answer _ _

theorem State.byMark_setPage (s : State) (h : Handset) (tag : Tag) : s.AddsByMark (s.setPage h tag) := by
  unfold State.setPage
  split <;> exact .of_eq rfl rfl rfl rfl

theorem State.byMark_startFind (s : State) (h : Handset) (r : Nat) : s.AddsByMark (s.startFind h r) :=
  .of_eq (by simp [State.startFind]) (by simp [State.startFind]) (by simp [State.startFind]) (by simp [State.startFind])

theorem State.byMark_beginFind (s : State) (h : Handset) : s.AddsByMark (s.beginFind h) := by
  unfold State.beginFind
  split
  · exact s.byMark_answer _ _
  · split
    · exact (s.byMark_startFind _ _).trans (State.byMark_answer _ _ _)
    · exact s.byMark_answer _ _

/-! ### The rows

Each lemma speaks of the next state a row answers. -/

/-- A row that always answers a next state answers that one. -/
theorem next_inj {a t : State} (h : (Host.Outcome.next a : Host.Outcome State Fault Refusal) = .next t) : a = t :=
  Host.Outcome.next.inj h

variable {s t : State}

theorem byMark_execOverheardExpiry {h : Handset} (g : execOverheardExpiry h s = .next t) : s.AddsByMark t := by
  obtain rfl := next_inj g
  split
  · split
    · exact .of_eq rfl rfl rfl rfl
    · exact State.AddsByMark.refl s
  · exact State.AddsByMark.refl s

theorem byMark_execIdleExpiry {i : Fin 64} (g : execIdleExpiry i s = .next t) : s.AddsByMark t := by
  obtain rfl := next_inj g
  split
  · split
    · split
      · exact .of_eq (by simp) (by simp) (by simp) (by simp)
      · exact State.AddsByMark.refl s
    all_goals exact State.AddsByMark.refl s
  · exact State.AddsByMark.refl s

theorem State.byMark_setupReachesZero (s : State) (i : Nat) (r : SetupRecord) : s.AddsByMark (s.setupReachesZero i r) := by
  unfold State.setupReachesZero
  split
  · exact (State.NoNew.byMark ((((s.noNew_freeBearer _).trans (State.noNew_modifyEntry _ _ _)).trans
      (State.noNew_dropSetup _ _)).trans (State.noNew_post _ _ _ _ _ _)) (by simp)).trans (State.byMark_drainTest _)
  · exact (s.noNew_dropSetup i).byMark (by simp)

theorem byMark_execSetupCounterExpiry {i : Fin 64} (g : execSetupCounterExpiry i s = .next t) : s.AddsByMark t := by
  obtain rfl := next_inj g
  split
  · split
    · exact s.byMark_setupReachesZero _ _
    · exact State.AddsByMark.refl s
  · exact State.AddsByMark.refl s

theorem byMark_execPageTimeout {h : Handset} (g : execPageTimeout h s = .next t) : s.AddsByMark t := by
  obtain rfl := next_inj g
  split
  · split
    · exact s.byMark_pageFails _ _
    · exact State.AddsByMark.refl s
  · exact State.AddsByMark.refl s

theorem byMark_execFindExpiry {r : Fin 4} (g : execFindExpiry r s = .next t) : s.AddsByMark t := by
  obtain rfl := next_inj g
  split
  · split
    · exact .of_eq (by simp) (by simp) (by simp) (by simp)
    · exact State.AddsByMark.refl s
  · exact State.AddsByMark.refl s

theorem byMark_execReplyByMarkDue {r : Fin 4} (g : execReplyByMarkDue r s = .next t) : s.AddsByMark t := by
  obtain rfl := next_inj g
  split
  · split
    · split
      · exact (s.kept_closeWindow _).byMark (s.noNew_closeWindow _)
      · exact State.AddsByMark.refl s
    all_goals exact State.AddsByMark.refl s
  · exact State.AddsByMark.refl s

theorem byMark_execTakeTimeout {r : Fin 4} (g : execTakeTimeout r s = .next t) : s.AddsByMark t := by
  obtain rfl := next_inj g
  split
  · split
    · split
      · exact (s.kept_nextCandidate _ _).byMark (s.noNew_nextCandidate _ _)
      · exact State.AddsByMark.refl s
    all_goals exact State.AddsByMark.refl s
  · exact State.AddsByMark.refl s

theorem byMark_execSwitchMarkDueOutbound {r : Fin 4} (g : execSwitchMarkDueOutbound r s = .next t) : s.AddsByMark t := by
  obtain rfl := next_inj g
  split
  · split
    · split
      · exact (s.kept_startFallback _).byMark (s.noNew_startFallback _)
      · exact State.AddsByMark.refl s
    all_goals exact State.AddsByMark.refl s
  · exact State.AddsByMark.refl s

theorem byMark_execFallbackExpiry {r : Fin 4} (g : execFallbackExpiry r s = .next t) : s.AddsByMark t := by
  obtain rfl := next_inj g
  split
  · split
    · split
      · exact (s.kept_expireFallback _).byMark (s.noNew_expireFallback _)
      · exact State.AddsByMark.refl s
    all_goals exact State.AddsByMark.refl s
  · exact State.AddsByMark.refl s

theorem byMark_execSwitchMarkDueInbound {r : Fin 4} (g : execSwitchMarkDueInbound r s = .next t) : s.AddsByMark t := by
  obtain rfl := next_inj g
  split
  · split
    · split
      · exact (s.kept_startAwaiting _).byMark (s.noNew_startAwaiting _)
      · exact State.AddsByMark.refl s
    · exact State.AddsByMark.refl s
  · exact State.AddsByMark.refl s

theorem byMark_execArrivalWindowExpiry {r : Fin 4} (g : execArrivalWindowExpiry r s = .next t) : s.AddsByMark t := by
  obtain rfl := next_inj g
  split
  · split
    · split
      · exact (s.kept_expireArrival _).byMark (s.noNew_expireArrival _)
      · exact State.AddsByMark.refl s
    · exact State.AddsByMark.refl s
  · exact State.AddsByMark.refl s

theorem byMark_execQuietPeriodExpiry (g : execQuietPeriodExpiry s = .next t) : s.AddsByMark t := by
  obtain rfl := next_inj g
  split
  · unfold State.quietReachesZero
    split
    · exact s.kept_becomeActive.byMark s.noNew_becomeActive
    · exact .of_eq rfl rfl rfl rfl
  · exact State.AddsByMark.refl s

theorem byMark_execDrainLimitExpiry (g : execDrainLimitExpiry s = .next t) : s.AddsByMark t := by
  obtain rfl := next_inj g
  split
  · exact (s.kept_completeDrain _).byMark (s.noNew_completeDrain _)
  · exact State.AddsByMark.refl s

theorem byMark_execContentionLost {bit : Fin 10} (g : execContentionLost bit s = .next t) : s.AddsByMark t := by
  obtain rfl := next_inj g
  split
  · split
    · exact s.byMark_loseContention
    · exact State.AddsByMark.refl s
  all_goals exact State.AddsByMark.refl s

theorem byMark_execNoticeSent (g : execNoticeSent s = .next t) : s.AddsByMark t := by
  obtain rfl := next_inj g
  exact .ite _ s.byMark_finishNotice (.refl s)

theorem State.byMark_advanceIdle (s : State) (n : Nat) : s.AddsByMark (s.advanceIdle n) :=
  .of_eq (by simp) (by simp) (by simp) (by simp)

theorem byMark_execTakeReceived (g : execTakeReceived s = .next t) : s.AddsByMark t := by
  obtain rfl := next_inj g
  split
  · split
    · exact s.byMark_dispatch _ (.ite _ (s.byMark_takeTake _ _ _) (.refl s))
    all_goals exact State.AddsByMark.refl s
  · exact State.AddsByMark.refl s

theorem byMark_execDeclineReceived (g : execDeclineReceived s = .next t) : s.AddsByMark t := by
  obtain rfl := next_inj g
  split
  · split
    · exact s.byMark_dispatch _ (.ite _ (s.byMark_takeDecline _ _ _) (.refl s))
    all_goals exact State.AddsByMark.refl s
  · exact State.AddsByMark.refl s

theorem byMark_execOfferReceived (g : execOfferReceived s = .next t) : s.AddsByMark t := by
  obtain rfl := next_inj g
  split
  · split
    · exact s.byMark_dispatch _ (.ite _ (s.byMark_takeOffer _ _ _ _) (.refl s))
    all_goals exact State.AddsByMark.refl s
  · exact State.AddsByMark.refl s

theorem byMark_execClaimReceived (g : execClaimReceived s = .next t) : s.AddsByMark t := by
  obtain rfl := next_inj g
  split
  · split
    · exact s.byMark_dispatch _ (s.byMark_takeClaim _)
    all_goals exact State.AddsByMark.refl s
  · exact State.AddsByMark.refl s

theorem byMark_execTransferReceived (g : execTransferReceived s = .next t) : s.AddsByMark t := by
  obtain rfl := next_inj g
  split
  · split
    · exact s.byMark_dispatch _ (.ite _ (s.byMark_takeTransfer _ _ _) (s.byMark_supersede _))
    all_goals exact State.AddsByMark.refl s
  · exact State.AddsByMark.refl s

theorem byMark_execSeekReceived (g : execSeekReceived s = .next t) : s.AddsByMark t := by
  obtain rfl := next_inj g
  split
  · split
    · exact s.byMark_dispatch _ ((s.byMark_supersede _).trans (State.byMark_takeSeek _ _ _ _))
    all_goals exact State.AddsByMark.refl s
  · exact State.AddsByMark.refl s

theorem byMark_execHereReceived (g : execHereReceived s = .next t) : s.AddsByMark t := by
  have answered : ∀ (u : State) (n : Notice) (k : BitVec 8) (f : Bool), u.AddsByMark (u.takeAnswer n k f) :=
    fun u n k f => .of_eq (by simp) (by simp) (by simp) (by simp)
  obtain rfl := next_inj g
  split
  · split
    · exact s.byMark_dispatch _ (.ite _ ((s.byMark_supersede _).trans (answered _ _ _ _)) (s.byMark_supersede _))
    all_goals exact State.AddsByMark.refl s
  · exact State.AddsByMark.refl s

theorem byMark_execFindReceived (g : execFindReceived s = .next t) : s.AddsByMark t := by
  obtain rfl := next_inj g
  split
  · split
    · exact s.byMark_dispatch _ (.of_eq (by simp) (by simp) (by simp) (by simp))
    all_goals exact State.AddsByMark.refl s
  · exact State.AddsByMark.refl s

theorem byMark_execConfigure {record : ConfigWord} (g : execConfigure record s = .next t) : s.AddsByMark t := by
  obtain rfl := next_inj g
  exact .ite _ (.of_eq rfl rfl rfl rfl) (s.byMark_answer _ _)

theorem byMark_execJoin (g : execJoin s = .next t) : s.AddsByMark t := by
  obtain rfl := next_inj g
  split
  case h_2 =>
    split
    · exact s.byMark_respond _
    · exact s.byMark_joinSegment.trans (State.byMark_answer _ _ _)
  all_goals exact s.byMark_respond _

theorem byMark_execLeave (g : execLeave s = .next t) : s.AddsByMark t := by
  obtain rfl := next_inj g
  split
  · exact s.byMark_startDrain.trans (State.byMark_answer _ _ _)
  · exact s.byMark_stopListening.trans (State.byMark_answer _ _ _)
  all_goals exact s.byMark_answer _ _

theorem byMark_execRestart (g : execRestart s = .next t) : s.AddsByMark t := by
  obtain rfl := next_inj g
  split
  · exact s.byMark_answer _ _
  · exact s.byMark_restart.trans (State.byMark_answer _ _ _)

theorem byMark_execPage {h : Handset} {tag : Tag} (g : execPage h tag s = .next t) : s.AddsByMark t := by
  obtain rfl := next_inj g
  split
  · exact s.byMark_answer _ _
  · exact (s.byMark_setPage _ _).trans (State.byMark_answer _ _ _)

theorem byMark_execClearCall {h : Handset} (g : execClearCall h s = .next t) : s.AddsByMark t := by
  obtain rfl := next_inj g
  refine .ite _ (s.byMark_answer _ _) (.ite _ (s.byMark_answer _ _) ?_)
  split
  · exact s.byMark_answer _ _
  · exact s.byMark_clearByHost _ _

theorem byMark_execLocate {h : Handset} (g : execLocate h s = .next t) : s.AddsByMark t := by
  obtain rfl := next_inj g
  refine .ite _ (s.byMark_answer _ _) (.ite _ (s.byMark_answer _ _) ?_)
  split
  · exact State.AddsByMark.trans ((s.noNew_post _ _ _ _ _).byMark (by simp)) (State.byMark_answer _ _ _)
  · exact .ite _ (s.byMark_answer _ _) (s.byMark_beginFind _)

theorem byMark_execQueryHandset {h : Handset} (g : execQueryHandset h s = .next t) : s.AddsByMark t := by
  obtain rfl := next_inj g
  exact .ite _ (s.byMark_answer _ _) (s.byMark_report _ _)

theorem byMark_execReadEntry {index : Byte} (g : execReadEntry index s = .next t) : s.AddsByMark t := by
  obtain rfl := next_inj g
  split
  · exact s.byMark_answer _ _
  · exact s.byMark_report _ _

theorem byMark_execUndefinedCommand {code : Byte} (g : execUndefinedCommand code s = .next t) : s.AddsByMark t := by
  unfold execUndefinedCommand at g
  split at g
  · obtain rfl := next_inj g
    exact s.byMark_answer _ _
  · cases g

theorem byMark_execIncompleteTransaction {clocked : Nat} (g : execIncompleteTransaction clocked s = .next t) :
    s.AddsByMark t := by
  unfold execIncompleteTransaction at g
  split at g
  · obtain rfl := next_inj g
    exact .of_eq rfl rfl rfl rfl
  · cases g

/-! ### The commands that move the mark -/

theorem execOrdinaryStrobe_markSafe {order : List StrobeWork} (g : s.MarkSafe) (h : execOrdinaryStrobe order s = .next t) :
    t.MarkSafe := by
  obtain rfl := next_inj h
  refine (State.noNew_strobeReport _ _).markSafe (by rw [(State.kept_strobeReport _ _).2]) ?_
  exact fun k => g k

/-- After an epoch strobe the mark is known. -/
theorem State.takeEpoch_known (s : State) (loss : List LossWork) : (s.takeEpoch loss).tb.known = true := by
  unfold State.takeEpoch
  split
  · rfl
  · split
    · rename_i h _
      show s.tb.known = true
      simpa using h
    · rfl

theorem execEpochStrobe_markSafe {loss : List LossWork} {order : List StrobeWork} (h : execEpochStrobe loss order s = .next t) :
    t.MarkSafe := by
  obtain rfl := next_inj h
  intro k
  rw [(State.kept_strobeReport _ _).2] at k
  exact absurd (k.symm.trans (s.takeEpoch_known loss)) (by simp)

theorem State.syncLoss_markSafe (s : State) (reason : Reason) (mark : Mark) (loss : List LossWork) :
    (s.syncLoss reason mark loss).MarkSafe := by
  obtain ⟨h1, h2, h3, h4⟩ := State.lossReport_releases ((s.postWithMark .syncLost 0 0 0 reason mark).loseMark) loss
  exact State.markSafe_of_empty h1 h2 h3 h4

theorem execStrobeOverdue_markSafe {loss : List LossWork} (g : s.MarkSafe) (h : execStrobeOverdue loss s = .next t) :
    t.MarkSafe := by
  obtain rfl := next_inj h
  split
  · exact g
  · split
    · exact State.syncLoss_markSafe _ _ _ _
    · exact fun k => g k

theorem State.fullReset_markSafe (s : State) : s.fullReset.MarkSafe :=
  State.markSafe_of_empty rfl rfl (allFree_replicate 4) (allFree_replicate 4)

/-! ### Every step -/

theorem exec_markSafe (c : Instr) (g : s.MarkSafe) (h : exec c s = .next t) : t.MarkSafe := by
  cases c with
  | ordinaryStrobe order => exact execOrdinaryStrobe_markSafe g h
  | epochStrobe loss order => exact execEpochStrobe_markSafe h
  | strobeOverdue loss => exact execStrobeOverdue_markSafe g h
  | planChangeDue => obtain rfl := next_inj h; exact (s.noNew_applyDueChanges.byMark rfl).markSafe g
  | overheardExpiry x => exact (byMark_execOverheardExpiry h).markSafe g
  | targetedListenDue => obtain rfl := next_inj h; exact (s.noNew_endDueListens.byMark rfl).markSafe g
  | holdoffExpiry i => obtain rfl := next_inj h; exact ((s.noNew_modifyEntry _ _).byMark (by simp)).markSafe g
  | idleExpiry i => exact (byMark_execIdleExpiry h).markSafe g
  | setupCounterExpiry i => exact (byMark_execSetupCounterExpiry h).markSafe g
  | pageTimeout x => exact (byMark_execPageTimeout h).markSafe g
  | findExpiry r => exact (byMark_execFindExpiry h).markSafe g
  | replyByMarkDue r => exact (byMark_execReplyByMarkDue h).markSafe g
  | takeTimeout r => exact (byMark_execTakeTimeout h).markSafe g
  | switchMarkDueOutbound r => exact (byMark_execSwitchMarkDueOutbound h).markSafe g
  | fallbackExpiry r => exact (byMark_execFallbackExpiry h).markSafe g
  | switchMarkDueInbound r => exact (byMark_execSwitchMarkDueInbound h).markSafe g
  | arrivalWindowExpiry r => exact (byMark_execArrivalWindowExpiry h).markSafe g
  | quietPeriodExpiry => exact (byMark_execQuietPeriodExpiry h).markSafe g
  | drainLimitExpiry => exact (byMark_execDrainLimitExpiry h).markSafe g
  | listenReport record => obtain rfl := next_inj h; exact (s.byMark_listenBurst _).markSafe g
  | attach record => obtain rfl := next_inj h; exact (s.byMark_beaconBurst _ _).markSafe g
  | presence record => obtain rfl := next_inj h; exact (s.byMark_beaconBurst _ _).markSafe g
  | call record => obtain rfl := next_inj h; exact (s.byMark_beaconBurst _ _).markSafe g
  | pageReply record => obtain rfl := next_inj h; exact (s.byMark_beaconBurst _ _).markSafe g
  | bearerReport record => obtain rfl := next_inj h; exact (s.byMark_bearerBurst _).markSafe g
  | heldReport record => obtain rfl := next_inj h; exact (s.byMark_heldBurst _).markSafe g
  | noticeBegin idle through =>
    obtain rfl := next_inj h
    exact ((s.byMark_advanceIdle idle).trans (.of_eq (by simp) (by simp) (by simp) (by simp))).markSafe g
  | contentionLost bit => exact (byMark_execContentionLost h).markSafe g
  | noticeSent => exact (byMark_execNoticeSent h).markSafe g
  | yieldTimeExpiry idle => obtain rfl := next_inj h; exact (s.byMark_advanceIdle idle).markSafe g
  | noticeHeard length word =>
    obtain rfl := next_inj h
    have busy : s.AddsByMark s.busBusy := .of_eq rfl rfl rfl rfl
    exact (busy.trans (State.byMark_hearNotice _ _ _)).markSafe g
  | takeReceived => exact (byMark_execTakeReceived h).markSafe g
  | declineReceived => exact (byMark_execDeclineReceived h).markSafe g
  | offerReceived => exact (byMark_execOfferReceived h).markSafe g
  | claimReceived => exact (byMark_execClaimReceived h).markSafe g
  | transferReceived => exact (byMark_execTransferReceived h).markSafe g
  | seekReceived => exact (byMark_execSeekReceived h).markSafe g
  | hereReceived => exact (byMark_execHereReceived h).markSafe g
  | findReceived => exact (byMark_execFindReceived h).markSafe g
  | configure record => exact (byMark_execConfigure h).markSafe g
  | join => exact (byMark_execJoin h).markSafe g
  | leave => exact (byMark_execLeave h).markSafe g
  | restart => exact (byMark_execRestart h).markSafe g
  | page x tag => exact (byMark_execPage h).markSafe g
  | clearCall x => exact (byMark_execClearCall h).markSafe g
  | locate x => exact (byMark_execLocate h).markSafe g
  | queryHandset x => exact (byMark_execQueryHandset h).markSafe g
  | readEntry index => exact (byMark_execReadEntry h).markSafe g
  | readStatus => obtain rfl := next_inj h; exact (s.byMark_report _ _).markSafe g
  | readEvent => obtain rfl := next_inj h; exact State.AddsByMark.markSafe (.of_eq rfl rfl rfl rfl) g
  | readTallies => obtain rfl := next_inj h; exact (s.byMark_report _ _).markSafe g
  | clearTallies => obtain rfl := next_inj h; exact State.AddsByMark.markSafe (.of_eq rfl rfl rfl rfl) g
  | undefinedCommand code => exact (byMark_execUndefinedCommand h).markSafe g
  | nullCommand => obtain rfl := next_inj h; exact State.AddsByMark.markSafe (.of_eq rfl rfl rfl rfl) g
  | incompleteTransaction clocked => exact (byMark_execIncompleteTransaction h).markSafe g
  | fullReset => obtain rfl := next_inj h; exact s.fullReset_markSafe

/-- Settles O56: a step idles, or runs a command that holds nothing new against an unknown mark; a sync loss and a full reset
leave nothing held. -/
theorem everyStepKeepsTheMarkSafe : Obligations.EveryStepKeepsTheMarkSafe := by
  unfold Obligations.EveryStepKeepsTheMarkSafe
  intro s t g h
  cases q : s.pending with
  | nil =>
    rw [step_idle s q] at h
    exact next_inj h ▸ g
  | cons c rest =>
    rw [step_of_pending c rest s q] at h
    exact exec_markSafe (s := s.withPending rest) c (fun k => g k) h

end Sys2Proof.Machine
end

section
/-! The marks and stamps, the strobes' moves of the Time Base, and the reset state. -/
namespace Sys2Proof.Machine

/-! ### Serial numbers and marks -/

/-- Two differences that are both at least 128 are both 128. -/
theorem serialOlder_both (a b : BitVec 8) : serialOlder a b = true ∧ serialOlder b a = true ↔ (a - b).toNat = 128 := by
  rw [serialOlder_iff, serialOlder_iff, serial_swap a b]
  have := (a - b).isLt
  omega

theorem serialDiff_zero_iff (a b : BitVec 8) : (a - b).toNat = 0 ↔ a = b := by bv_omega

/-- Each of two stamps is older than the other exactly at an epoch difference of 128, or a hop difference of 128 in one epoch. -/
theorem Stamp.older_both (s t : Stamp) : s.older t = true ∧ t.older s = true ↔
    (s.epoch - t.epoch).toNat = 128 ∨ (s.epoch = t.epoch ∧ (s.hop - t.hop).toNat = 128) := by
  have epochs := serialOlder_both s.epoch t.epoch
  have hops := serialOlder_both s.hop t.hop
  rw [Stamp.older_iff, Stamp.older_iff]
  by_cases h : s.epoch = t.epoch
  · have same : serialOlder t.epoch t.epoch = false := by simp [serialOlder, serialDiff]
    simp [h, same, hops]
  · simp [h, Ne.symm h, epochs]

/-- Settles O8: the comparisons as propositions over differences, which `serial_swap` relates around the circle. -/
theorem serialAndStampOrder : Obligations.SerialAndStampOrder := by
  refine ⟨fun a b => ⟨serialNewer_iff a b, serialOlder_iff a b, serialDiff_zero_iff a b, ?_, ?_⟩, Stamp.newer_iff,
    Stamp.older_iff, Stamp.older_both, ?_, fun s => ⟨rfl, s.nextHop_newer⟩⟩
  · rw [serialNewer_iff, serialOlder_iff, serial_swap a b]
    omega
  · rw [serialNewer_iff, serialOlder_iff, serial_swap a b]
    omega
  · rintro ⟨e, h⟩ ⟨e', h'⟩
    simp

/-- D(m) as a difference of numbers. -/
theorem mark_sub_toNat (m n : Mark) : (m - n).toNat = (m.toNat + 256 - n.toNat) % 256 := by bv_omega

theorem TimeBase.distance?_ahead (tb : TimeBase) (n : Nat) (h : tb.known = true) (g : n < 256) :
    tb.distance? (tb.ahead n) = some n := by
  rw [tb.distance?_known _ h, TimeBase.ahead, mark_sub_toNat, BitVec.toNat_add, BitVec.toNat_ofNat]
  have := tb.mark.isLt
  congr 1
  omega

/-- Settles O9: the range test is one on the difference of two marks, read as a number by `mark_sub_toNat`. -/
theorem markDistance : Obligations.MarkDistance := by
  refine ⟨?_, TimeBase.within_unknown, TimeBase.due_iff, TimeBase.distance?_ahead, ?_⟩
  · intro tb m h
    rw [tb.distance?_known m h, mark_sub_toNat]
  · intro tb m lo hi h
    rw [tb.within_iff, mark_sub_toNat]
    simp [h]

/-! ### The full reset -/

theorem slotEntry_cleared (k : Nat) : ((Vector.replicate 16 SlotEntry.free)[k]?).getD .free = .free := by
  by_cases h : k < 16 <;> simp [h]

theorem planned_idle (k : Nat) : (SlotPlanner.idlePlan[k]?).getD { role := .idle, reported := false }
    = { role := .idle, reported := false } := by
  unfold SlotPlanner.idlePlan
  by_cases h : k < 16 <;> simp [h]

theorem worstMap_getD (k : Nat) : (Measurement.worstMap[k]?).getD Config.worstCell = Config.worstCell := by
  unfold Measurement.worstMap
  by_cases h : k < 120 <;> simp [h]

/-- Settles O2: the part's own fields are those of the reset state, block by block. -/
theorem fullResetLeavesResetValues : Obligations.FullResetLeavesResetValues := fun s =>
  ⟨s.fullReset, rfl, rfl, slotEntry_cleared, rfl, rfl, rfl, rfl, planned_idle, fun c => worstMap_getD (mapPlace c), rfl, rfl,
    allFree_replicate 64, allFree_replicate 4, rfl, rfl, rfl, rfl, rfl, rfl, allFree_replicate 4, allFree_replicate 4, rfl, rfl,
    rfl, rfl, rfl, rfl, rfl, rfl, rfl, rfl, rfl, rfl, rfl, rfl, Tallies.get_zero, rfl, rfl⟩

/-! ### The state after reset -/

theorem reset_entry? (i : Nat) : State.reset.entry? i = none := allFree_replicate 64 i
theorem reset_outRecord? (r : Nat) : State.reset.outRecord? r = none := allFree_replicate 4 r
theorem reset_inRecord? (r : Nat) : State.reset.inRecord? r = none := allFree_replicate 4 r

theorem reset_withinCapacity : State.reset.WithinCapacity where
  changes := Nat.zero_le _
  beaconQ := Nat.zero_le _
  overheard := Nat.zero_le _
  listens := Nat.zero_le _
  pages := Nat.zero_le _
  queue := Nat.zero_le _
  rx := Nat.zero_le _
  events := Nat.zero_le _
  lost := Nat.zero_le _
  candidates := by simp [reset_outRecord?]

theorem reset_handsetsApart : State.reset.HandsetsApart where
  table := by simp [reset_entry?]
  overheard := List.nodup_nil
  apart := by simp [reset_entry?]

theorem reset_emptyOutOfService : State.reset.EmptyOutOfService where
  table := reset_entry?
  finds := allFree_replicate 4
  setups := rfl
  pages := rfl
  outbound := reset_outRecord?
  inbound := reset_inRecord?
  plan := slotEntry_cleared
  changes := rfl
  moves := rfl
  beaconQ := rfl
  listens := rfl

/-- Every field of the full reset column lies in its range. -/
theorem fullReset_inRange : ConfigRecord.InRange ConfigRecord.fullReset := by
  constructor <;> decide

theorem reset_levelsInRange : State.reset.LevelsInRange where
  config := fullReset_inRange
  map c := (worstMap_getD (mapPlace c)).le
  overheard := by rintro o ⟨⟩
  table := by simp [reset_entry?]

theorem reset_recordsMatch : State.reset.RecordsMatch where
  slots := by simp [reset_entry?]
  changes := by rintro c ⟨⟩
  setups := by rintro r ⟨⟩
  setupsOnce := List.nodup_nil
  outbound := by simp [reset_outRecord?]
  outboundOnce := by simp [reset_outRecord?]
  inbound := by simp [reset_inRecord?]
  inboundOnce := by simp [reset_inRecord?]
  moves := by rintro m ⟨⟩
  movesOnce := List.nodup_nil

/-- Settles O60, one invariant at a time. -/
theorem resetMeetsTheInvariants : Obligations.ResetMeetsTheInvariants :=
  ⟨reset_withinCapacity, fun _ => ⟨rfl, rfl, reset_outRecord?, reset_inRecord?⟩, reset_handsetsApart,
    fun _ => reset_emptyOutOfService, reset_levelsInRange, reset_recordsMatch⟩

/-! ### Strobes -/

/-- An ordinary strobe in one update of the Time Base. -/
theorem exec_ordinaryStrobe (order : List StrobeWork) (s : State) :
    exec (.ordinaryStrobe order) s = .next (State.strobeReport
      { s with tb := { mark := s.tb.mark + 1, known := s.tb.known, frames := s.tb.frames + 1, watch := .running } } order) := rfl

/-- R4: the first half of an epoch strobe that finds the mark unknown. -/
theorem State.takeEpoch_unknown (s : State) (loss : List LossWork) (h : s.tb.known = false) : s.takeEpoch loss = s.regain := by
  simp [State.takeEpoch, h]

/-- R5: the first half of an epoch strobe that finds the mark in step. -/
theorem State.takeEpoch_inStep (s : State) (loss : List LossWork) (h : s.tb.known = true) (g : s.tb.mark = 255) :
    s.takeEpoch loss = s.advanceMark := by
  simp [State.takeEpoch, h, g]

/-- R6: the first half of an epoch strobe that finds the mark out of step. -/
theorem State.takeEpoch_realigns (s : State) (loss : List LossWork) (h : s.tb.known = true) (g : s.tb.mark ≠ 255) :
    s.takeEpoch loss = (s.syncLoss .realigned (s.tb.mark + 1) loss).regain := by
  simp only [State.takeEpoch, h, Bool.not_true, Bool.false_eq_true, if_false, if_neg g]

theorem exec_epochStrobe (loss : List LossWork) (order : List StrobeWork) (s : State) :
    exec (.epochStrobe loss order) s = .next ((s.takeEpoch loss).countFrame.strobeReport order) := rfl

/-- Settles O3: an unknown mark is regained, and no piece of a strobe report's work writes the Time Base. -/
theorem strobesMoveTheMark : Obligations.StrobesMoveTheMark := by
  refine ⟨exec_ordinaryStrobe, ?_, fun order s => (s.kept_strobeReport order).2⟩
  intro loss order s h
  rw [exec_epochStrobe, s.takeEpoch_unknown loss h]
  rfl

/-- Settles O4: at mark 255 the first half of an epoch strobe is an ordinary strobe's. -/
theorem epochStrobeInStepIsOrdinary : Obligations.EpochStrobeInStepIsOrdinary := by
  intro loss order s h g
  rw [exec_epochStrobe, s.takeEpoch_inStep loss h g]
  rfl

/-- Settles O5: the sync loss report leaves nothing held, and the regain and the strobe report add nothing. -/
theorem realignmentReleasesAndRegains : Obligations.RealignmentReleasesAndRegains := by
  intro loss order s u h g hu
  have lost : s.syncLoss .realigned (s.tb.mark + 1) loss = u := hu.symm
  have frames : u.tb.frames = s.tb.frames := by rw [← lost, (s.syncLoss_keeps _ _ _).2]
  have regained : u.regain.countFrame = { u with
      tb := { mark := 0, known := true, frames := s.tb.frames + 1, watch := .running }
      hl := u.hl.post { kind := .syncRegained, handset := 0, other := 0, tag := 0, reason := .none, mark := 0, lost := 0 } } := by
    rw [← frames]
    rfl
  obtain ⟨changes, listens, outbound, inbound⟩ := hu ▸ State.lossReport_releases _ loss
  have adds := State.noNew_strobeReport u.regain.countFrame order
  refine ⟨u.regain.countFrame.strobeReport order, ?_, by rw [regained], ?_, ?_, ?_, ?_, ?_⟩
  · rw [exec_epochStrobe, s.takeEpoch_realigns loss h g, lost]
  · rw [(State.kept_strobeReport _ _).2, regained]
  · exact List.subset_nil.mp (changes ▸ adds.changes)
  · exact List.subset_nil.mp (listens ▸ adds.listens)
  · exact fun r => adds.outbound r (outbound r)
  · exact fun r => adds.inbound r (inbound r)

end Sys2Proof.Machine
end

section
/-! A sync loss: what it makes of each record, list and queue, and that a state with nothing to release is left alone. -/
namespace Sys2Proof.Machine

/-! ### The order of the work -/

/-- The work of a sync loss in an order that names each piece once. -/
theorem State.lossReport_of_perm (s : State) (loss : List LossWork) (h : loss.Nodup) (g : ∀ w, w ∈ loss) :
    s.lossReport loss = loss.foldl doLossWork s := by
  unfold State.lossReport
  rw [scheduled_of_perm loss lossWork h fun w => iff_of_true (g w) (mem_lossWork w)]

theorem State.lossReport_eq_foldl (s : State) (loss : List LossWork) :
    ∃ works : List LossWork, works.Nodup ∧ (∀ w, w ∈ works) ∧ s.lossReport loss = works.foldl doLossWork s :=
  ⟨scheduled loss lossWork, nodup_scheduled loss lossWork nodup_lossWork,
    fun w => (mem_scheduled _ _ w).mpr (mem_lossWork w), rfl⟩

/-! ### An outbound record -/

section
variable {s : State} {r : Fin 4} {o : OutRecord} {e : Entry}

/-- R142: an attempt whose record and entry are held fails. -/
theorem State.failAttempt_some (ho : s.outRecord? r.val = some o) (he : s.entry? o.entry = some e) (reason : Reason)
    (other : Nat) : s.failAttempt r.val reason other =
      (((s.post .handoverFailed e.handset other e.tag reason).count .handoverFailures).setEntry o.entry
        (some { e with holdoff := s.sc.config.holdoff })).setOut r.val none := by
  have entered : ((s.post .handoverFailed e.handset other e.tag reason).count .handoverFailures).entry? o.entry = some e := by
    simpa using he
  simp only [State.failAttempt, ho, State.failEntry, he, State.modifyEntry_some _ _ _ _ entered]

theorem State.releaseOut_none (ho : s.outRecord? r.val = none) : s.releaseOut r.val = s := by
  simp only [State.releaseOut, ho]

theorem State.releaseOut_seeking (ho : s.outRecord? r.val = some o) (he : s.entry? o.entry = some e) {m : Mark}
    {l : List Candidate} (hp : o.phase = .seeking m l) : s.releaseOut r.val = s.failAttempt r.val .noSync 0 := by
  simp only [State.releaseOut, ho, he, hp]

theorem State.releaseOut_asking (ho : s.outRecord? r.val = some o) (he : s.entry? o.entry = some e) {l : List Candidate}
    {target : Nat} {m : Mark} {n : Nat} (hp : o.phase = .asking l target m n) :
    s.releaseOut r.val = s.failAttempt r.val .noSync target := by
  simp only [State.releaseOut, ho, he, hp]

/-- R144: a SWITCHING record ends with its MOVE, and its call stays on the old bearer. -/
theorem State.releaseOut_switching (ho : s.outRecord? r.val = some o) (he : s.entry? o.entry = some e) {target : Nat} {m : Mark}
    {nc c : Cell} {tag : Tag} {k : Link} (hp : o.phase = .switching target m nc) (hl : e.phase = .leaving c tag k) :
    s.releaseOut r.val =
      ((((s.withdrawMove c.slot).post .handoverFailed e.handset target tag .noSync).count .handoverFailures).setEntry o.entry
        (some { e with phase := .inCall c tag k, holdoff := s.sc.config.holdoff })).setOut r.val none := by
  have entered : ((s.withdrawMove c.slot).setEntry o.entry (some { e with phase := .inCall c tag k })).entry? o.entry
      = some { e with phase := .inCall c tag k } := State.entry?_setEntry_self _ _ _ (State.entry?_lt he)
  have released : s.releaseOut r.val
      = ((s.withdrawMove c.slot).setEntry o.entry (some { e with phase := .inCall c tag k })).failAttempt r.val .noSync target := by
    simp only [State.releaseOut, ho, he, hp, State.stayOnOld, hl]
  rw [released, State.failAttempt_some (o := o) (by simpa [State.outRecord?] using ho) entered]
  exact congrArg (State.setOut · r.val none) (State.setEntry_setEntry
    (((s.withdrawMove c.slot).post .handoverFailed e.handset target tag .noSync).count .handoverFailures) _ _ _)

/-- R144: a FALLBACK record ends with its call, its slot and its entry. -/
theorem State.releaseOut_fallback (ho : s.outRecord? r.val = some o) (he : s.entry? o.entry = some e) {target : Nat} {m : Mark}
    {nc c : Cell} {n : Nat} {tag : Tag} {k : Link} (hp : o.phase = .fallback target m nc n) (hl : e.phase = .leaving c tag k) :
    s.releaseOut r.val =
      (((((s.freeSlot c.slot).post .callLost e.handset target tag .noSync).count .callsLost).freeEntry o.entry).setOut
        r.val none).drainTest := by
  have cell : e.cell? = some c := by simp only [Entry.cell?, hl]
  have call : e.tag = tag := by simp only [Entry.tag, hl]
  simp only [State.releaseOut, ho, he, hp, State.loseHandover, State.freeBearer, cell, State.callLost, call]

end

/-! ### An inbound record -/

theorem State.missArrival_none {s : State} {r : Nat} (h : s.inRecord? r = none) (reason : Reason) :
    s.missArrival r reason = s := by
  simp only [State.missArrival, h]

/-- R158, R162: an ARRIVING entry goes with its slot and its record. -/
theorem State.missArrival_arriving {s : State} {r : Nat} {o : InRecord} {e : Entry} {c : Cell} {tag : Tag}
    (ho : s.inRecord? r = some o) (he : s.entry? o.entry = some e) (hp : e.phase = .arriving c tag) (reason : Reason) :
    s.missArrival r reason =
      (((((s.freeSlot c.slot).freeEntry o.entry).post .arrivalMissed o.handset o.source tag reason).count
        .arrivalsMissed).setIn r none).drainTest := by
  have cell : e.cell? = some c := by simp only [Entry.cell?, hp]
  have call : e.tag = tag := by simp only [Entry.tag, hp]
  simp only [State.missArrival, ho, he, State.freeBearer, cell, call]

/-! ### The transmit queue -/

theorem Notice.bindsMark_iff (n : Notice) : n.bindsMark = true ↔
    (∃ k c, n.body = .take k c) ∨ (∃ k t, n.body = .transfer k t)
    ∨ (∃ k o f, n.body = .offer k o f) ∨ ∃ k c m, n.body = .seek k c m := by
  unfold Notice.bindsMark
  cases n.body <;> simp

theorem condemn_contending (q : QueuedNotice) (w : NoticeWord) :
    condemn (.contending w) q = { q with condemned := q.condemned || (q.notice.bindsMark && q.inTransmission) } := by
  unfold condemn
  cases h : q.notice.bindsMark && q.inTransmission
  · simp
  · simp

/-- A condemned notice stays the same notice, in transmission or not as before. -/
theorem condemn_keeps (tx : Transmitter) (q : QueuedNotice) :
    (condemn tx q).notice = q.notice ∧ (condemn tx q).inTransmission = q.inTransmission := by
  unfold condemn
  split
  · split <;> exact ⟨rfl, rfl⟩
  · exact ⟨rfl, rfl⟩
  · exact ⟨rfl, rfl⟩

theorem condemn_of_not_bindsMark (tx : Transmitter) (q : QueuedNotice) (h : q.notice.bindsMark = false) : condemn tx q = q := by
  unfold condemn
  split <;> simp [h]

theorem survivesLoss_iff (q : QueuedNotice) :
    survivesLoss q = true ↔ (q.notice.bindsMark = true → q.inTransmission = true) := by
  unfold survivesLoss
  cases q.notice.bindsMark <;> simp

/-- R120: no SEEK, OFFER, TRANSFER or TAKE waits in the transmit queue. -/
def State.NoMarkNoticeWaits (s : State) : Prop := ∀ q ∈ s.bus.queue, q.notice.bindsMark = true → q.inTransmission = true

theorem State.all_survivesLoss_iff (s : State) : s.bus.queue.all survivesLoss = true ↔ s.NoMarkNoticeWaits := by
  simp only [List.all_eq_true, survivesLoss_iff, State.NoMarkNoticeWaits]

/-- What a sync loss leaves in the transmit queue. -/
def Bus.afterSyncLoss (b : Bus) : Bus := { b with queue := (b.queue.filter survivesLoss).map (condemn b.tx) }

theorem State.busLoss_eq (s : State) : s.busLoss =
    if s.bus.queue.all survivesLoss then { s with bus := s.bus.afterSyncLoss }
    else State.occupancyFell { s with bus := s.bus.afterSyncLoss } := rfl

theorem State.busLoss_stays (s : State) (h : s.NoMarkNoticeWaits) : s.busLoss = { s with bus := s.bus.afterSyncLoss } := by
  rw [s.busLoss_eq, if_pos (s.all_survivesLoss_iff.mpr h)]

theorem State.busLoss_falls (s : State) (h : ∃ q ∈ s.bus.queue, q.notice.bindsMark = true ∧ q.inTransmission = false) :
    s.busLoss = State.occupancyFell { s with bus := s.bus.afterSyncLoss } := by
  obtain ⟨q, hq, binds, waits⟩ := h
  rw [s.busLoss_eq, if_neg]
  exact fun g => absurd ((s.all_survivesLoss_iff.mp g q hq binds).symm.trans waits) (by simp)

theorem Bus.afterSyncLoss_waits (b : Bus) :
    ∀ q ∈ b.afterSyncLoss.queue, q.notice.bindsMark = true → q.inTransmission = true := by
  intro q hq
  obtain ⟨p, hp, rfl⟩ := List.mem_map.mp hq
  obtain ⟨same, out⟩ := condemn_keeps b.tx p
  rw [same, out]
  exact (survivesLoss_iff p).mp (List.mem_filter.mp hp).2

/-- A queue without such notices is left as it is. -/
theorem Bus.afterSyncLoss_of_none (b : Bus) (h : ∀ q ∈ b.queue, q.notice.bindsMark = false) : b.afterSyncLoss = b := by
  have survive : b.queue.filter survivesLoss = b.queue :=
    List.filter_eq_self.mpr fun q hq => by simp [survivesLoss, h q hq]
  have same : b.queue.map (condemn b.tx) = b.queue :=
    (List.map_congr_left fun q hq => condemn_of_not_bindsMark b.tx q (h q hq)).trans (List.map_id _)
  simp only [Bus.afterSyncLoss, survive, same]

/-! ### No such notice waits after a sync loss -/

theorem State.noMarkNoticeWaits_of_bus {s t : State} (h : t.bus = s.bus) (g : s.NoMarkNoticeWaits) : t.NoMarkNoticeWaits := by
  unfold State.NoMarkNoticeWaits
  rw [h]
  exact g

/-- An offered notice of another kind adds none. -/
theorem State.noMarkNoticeWaits_offer (s : State) (n : Notice) (h : n.bindsMark = false) (g : s.NoMarkNoticeWaits) :
    (s.offer n).NoMarkNoticeWaits := by
  obtain ⟨-, e | e⟩ | ⟨-, k, -, e⟩ | ⟨-, -, e⟩ := s.offer_cases n <;> rw [e]
  · exact g
  · exact State.noMarkNoticeWaits_of_bus (by simp) g
  · intro q hq binds
    obtain ⟨j, hj⟩ := List.mem_iff_getElem?.mp hq
    simp only [Bus.coalesce, List.getElem?_modify, Option.map_eq_map, Option.map_eq_some_iff] at hj
    obtain ⟨p, hp, rfl⟩ := hj
    split at binds
    · simp [h] at binds
    · rename_i other
      simpa only [if_neg other] using g p (List.mem_of_getElem? hp) binds
  · intro q hq binds
    simp only [Bus.append, List.mem_append, List.mem_singleton] at hq
    obtain hq | rfl := hq
    · exact g q hq binds
    · simp [h] at binds

theorem State.noMarkNoticeWaits_offerClaim (s : State) (i : Nat) (g : s.NoMarkNoticeWaits) :
    (s.offerClaim i).NoMarkNoticeWaits := by
  unfold State.offerClaim
  split
  · rename_i e _
    exact State.noMarkNoticeWaits_of_bus (by simp) (s.noMarkNoticeWaits_offer (s.claimOf e) rfl g)
  · exact g

theorem noMarkNoticeWaits_readmitFrom (l : List Nat) (s : State) (g : s.NoMarkNoticeWaits) :
    (readmitFrom l s).NoMarkNoticeWaits := by
  induction l generalizing s with
  | nil => exact g
  | cons i l ih =>
    unfold readmitFrom
    split
    · split
      · split
        · exact ih _ (s.noMarkNoticeWaits_offerClaim i g)
        · exact g
      · exact ih _ g
    · exact ih _ g

theorem State.noMarkNoticeWaits_occupancyFell (s : State) (g : s.NoMarkNoticeWaits) : s.occupancyFell.NoMarkNoticeWaits :=
  noMarkNoticeWaits_readmitFrom _ _ g

/-- Drain completion leaves no waiting notice. -/
theorem State.noMarkNoticeWaits_drainTest (s : State) (g : s.NoMarkNoticeWaits) : s.drainTest.NoMarkNoticeWaits := by
  unfold State.drainTest
  split
  · rw [State.completeDrain_eq]
    exact fun q hq _ => s.bus.clear_queue q hq
  · exact g

theorem State.noMarkNoticeWaits_busLoss (s : State) : s.busLoss.NoMarkNoticeWaits := by
  have left : State.NoMarkNoticeWaits { s with bus := s.bus.afterSyncLoss } := s.bus.afterSyncLoss_waits
  rw [s.busLoss_eq]
  split
  · exact left
  · exact State.noMarkNoticeWaits_occupancyFell _ left

theorem State.noMarkNoticeWaits_releaseOut (s : State) (r : Nat) (g : s.NoMarkNoticeWaits) :
    (s.releaseOut r).NoMarkNoticeWaits := by
  unfold State.releaseOut
  split
  · split
    case h_4 => exact State.noMarkNoticeWaits_drainTest _ (State.noMarkNoticeWaits_of_bus (by simp) g)
    all_goals exact State.noMarkNoticeWaits_of_bus (by simp) g
  · exact g

theorem State.noMarkNoticeWaits_missArrival (s : State) (r : Nat) (reason : Reason) (g : s.NoMarkNoticeWaits) :
    (s.missArrival r reason).NoMarkNoticeWaits := by
  unfold State.missArrival
  split
  · split
    · exact State.noMarkNoticeWaits_drainTest _ (State.noMarkNoticeWaits_of_bus (by simp) g)
    · exact State.noMarkNoticeWaits_of_bus (by simp) g
  · exact g

theorem noMarkNoticeWaits_doLossWork (s : State) (w : LossWork) (g : s.NoMarkNoticeWaits) :
    (doLossWork s w).NoMarkNoticeWaits := by
  cases w with
  | slotPlanner => exact g
  | measurement => exact g
  | outbound r => exact s.noMarkNoticeWaits_releaseOut _ g
  | inbound r => exact s.noMarkNoticeWaits_missArrival _ _ g
  | bus => exact s.noMarkNoticeWaits_busLoss

theorem State.noMarkNoticeWaits_lossReport (s : State) (loss : List LossWork) : (s.lossReport loss).NoMarkNoticeWaits :=
  foldl_reaches doLossWork State.NoMarkNoticeWaits noMarkNoticeWaits_doLossWork .bus State.noMarkNoticeWaits_busLoss _
    ((mem_scheduled _ _ _).mpr (mem_lossWork _)) s

/-! ### Nothing to release -/

/-- A state that holds nothing against its mark. -/
structure State.NothingToRelease (s : State) : Prop where
  changes : s.sp.changes = []
  listens : s.mu.listens = []
  outbound : allFree s.he.outbound
  inbound : allFree s.he.inbound
  notices : ∀ q ∈ s.bus.queue, q.notice.bindsMark = false

theorem doLossWork_nothing {s : State} (h : s.NothingToRelease) (w : LossWork) : doLossWork s w = s := by
  cases w with
  | slotPlanner => simp only [doLossWork, ← h.changes]
  | measurement => simp only [doLossWork, ← h.listens]
  | outbound r => exact State.releaseOut_none (h.outbound r)
  | inbound r => exact State.missArrival_none (h.inbound r) _
  | bus =>
    have waits : s.NoMarkNoticeWaits := fun q hq binds => absurd binds (by simp [h.notices q hq])
    simp only [doLossWork, s.busLoss_stays waits, s.bus.afterSyncLoss_of_none h.notices]

theorem State.lossReport_nothing {s : State} (h : s.NothingToRelease) (loss : List LossWork) : s.lossReport loss = s := by
  unfold State.lossReport
  generalize scheduled loss lossWork = l
  induction l with
  | nil => rfl
  | cons w l ih => rw [List.foldl_cons, doLossWork_nothing h w, ih]

/-! ### The watch's expiry -/

theorem exec_strobeOverdue_known (loss : List LossWork) (s : State) (h : s.tb.watch = .running) (g : s.tb.known = true) :
    exec (.strobeOverdue loss) s = .next (State.lossReport { s with
      tb := { s.tb with known := false, watch := .disarmed }
      hl := s.hl.post { kind := .syncLost, handset := 0, other := 0, tag := 0, reason := .overdue, mark := s.tb.mark
                        lost := 0 } } loss) := by
  simp only [exec, execStrobeOverdue, h, g, if_true]
  rfl

theorem exec_strobeOverdue_unknown (loss : List LossWork) (s : State) (h : s.tb.watch = .running) (g : s.tb.known = false) :
    exec (.strobeOverdue loss) s = .next { s with tb := { s.tb with watch := .disarmed } } := by
  have disarms : execStrobeOverdue loss s = .next s.disarmWatch := by
    simp only [execStrobeOverdue, h, g, Bool.false_eq_true, if_false]
  exact disarms

theorem exec_strobeOverdue_disarmed (loss : List LossWork) (s : State) (h : s.tb.watch = .disarmed) :
    exec (.strobeOverdue loss) s = .next s := by
  simp only [exec, execStrobeOverdue, h]

/-- Settles O6: the watch's expiry by the state of watch and mark, then the work of its sync loss report piece by piece. -/
theorem overdueStrobeLosesTheMark : Obligations.OverdueStrobeLosesTheMark := by
  refine ⟨?_, exec_strobeOverdue_unknown, ?_, exec_strobeOverdue_known, exec_strobeOverdue_disarmed,
    fun loss s => ⟨s.lossReport_of_perm loss, s.lossReport_eq_foldl loss⟩, fun s => ⟨rfl, rfl⟩,
    fun r s h => State.releaseOut_none h, ?_, fun r s h => State.missArrival_none h _, ?_, Notice.bindsMark_iff,
    fun q w => ⟨rfl, rfl, condemn_contending q w⟩, ?_⟩
  · intro loss s h g
    obtain ⟨changes, listens, outbound, inbound⟩ := State.lossReport_releases _ loss
    exact ⟨_, exec_strobeOverdue_known loss s h g, (State.kept_lossReport _ loss).2, changes, listens, outbound, inbound,
      State.noMarkNoticeWaits_lossReport _ loss⟩
  · intro loss s h g changes listens outbound inbound notices
    refine (exec_strobeOverdue_known loss s h g).trans (congrArg Host.Outcome.next (State.lossReport_nothing ?_ loss))
    exact ⟨changes, listens, outbound, inbound, notices⟩
  · intro r o e s ho he
    refine ⟨fun m l hp => ?_, fun l target m n hp => ?_, fun target m nc c tag k hp hl => ?_,
      fun target m nc n c tag k hp hl => ?_⟩
    · exact (State.releaseOut_seeking ho he hp).trans (State.failAttempt_some ho he _ _)
    · exact (State.releaseOut_asking ho he hp).trans (State.failAttempt_some ho he _ _)
    · exact State.releaseOut_switching ho he hp hl
    · exact State.releaseOut_fallback ho he hp hl
  · exact fun r o e c tag s ho he hp => State.missArrival_arriving ho he hp _
  · rintro s t rfl
    exact ⟨s.busLoss_stays, s.busLoss_falls⟩

end Sys2Proof.Machine
end

section
/-! A strobe report: the order of its work, the holdoffs ahead of it, and each piece of it beside its own row. -/
namespace Sys2Proof.Machine

/-! ### The order of the work -/

theorem State.strobeReport_of_perm (s : State) (order : List StrobeWork) (h : order.Nodup)
    (g : ∀ w, w ∈ order ↔ w ∈ s.holdoffsStrobe.strobeWork) :
    s.strobeReport order = order.foldl doStrobeWork s.holdoffsStrobe := by
  unfold State.strobeReport
  rw [scheduled_of_perm order _ h g]

/-- The pieces that an order names come first, and then the rest. -/
theorem State.strobeReport_named_rest (s : State) (order : List StrobeWork) :
    ∃ named rest : List StrobeWork, (∀ w, w ∈ named ↔ w ∈ order ∧ w ∈ s.holdoffsStrobe.strobeWork)
      ∧ (∀ w, w ∈ named ++ rest ↔ w ∈ s.holdoffsStrobe.strobeWork)
      ∧ ((s.cc.pages.map (·.handset)).Nodup → (named ++ rest).Nodup)
      ∧ s.strobeReport order = (named ++ rest).foldl doStrobeWork s.holdoffsStrobe := by
  refine ⟨(order.filter fun w => w ∈ s.holdoffsStrobe.strobeWork).eraseDups,
    s.holdoffsStrobe.strobeWork.filter fun w => w ∉ order, ?_, mem_scheduled order _, ?_, rfl⟩
  · intro w
    simp only [List.mem_eraseDups, List.mem_filter, decide_eq_true_eq]
  · intro h
    refine nodup_scheduled order _ (State.nodup_strobeWork _ ?_)
    rwa [s.cc_holdoffsStrobe]

/-! ### The pieces there are -/

theorem State.silence_mem_strobeWork (s : State) (i : Fin 64) : .silence i ∈ s.strobeWork ↔ s.entry? i.val ≠ none := by
  simp [State.strobeWork, tableIndices, recordIndices, Option.isSome_iff_ne_none]

theorem State.setup_mem_strobeWork (s : State) (i : Fin 64) : .setup i ∈ s.strobeWork ↔ s.entry? i.val ≠ none := by
  simp [State.strobeWork, tableIndices, recordIndices, Option.isSome_iff_ne_none]

theorem State.page_mem_strobeWork (s : State) (h : Handset) : .page h ∈ s.strobeWork ↔ ∃ p ∈ s.cc.pages, p.handset = h := by
  simp [State.strobeWork, tableIndices, recordIndices]

theorem State.record_mem_strobeWork (s : State) (r : Fin 4) :
    .findRecord r ∈ s.strobeWork ∧ .outbound r ∈ s.strobeWork ∧ .inbound r ∈ s.strobeWork := by
  simp [State.strobeWork, recordIndices]

theorem State.block_mem_strobeWork (s : State) : .measurement ∈ s.strobeWork ∧ .slotPlanner ∈ s.strobeWork
    ∧ .quietPeriod ∈ s.strobeWork ∧ .drainLimit ∈ s.strobeWork ∧ .occupancy ∈ s.strobeWork := by
  simp [State.strobeWork]

/-! ### The holdoffs -/

theorem State.sc_holdoffStrobe (s : State) (k : Nat) : (s.holdoffStrobe k).sc = s.sc := by simp [State.holdoffStrobe]

theorem State.entry?_holdoffStrobe (s : State) (k i : Nat) :
    (s.holdoffStrobe k).entry? i = if i = k then (s.entry? i).map (countHoldoff s.sc.config) else s.entry? i := by
  unfold State.holdoffStrobe
  cases e : s.entry? k with
  | none =>
    rw [State.modifyEntry_none _ _ _ e]
    split
    · rename_i h
      simp [h, e]
    · rfl
  | some f =>
    rw [State.modifyEntry_some _ _ _ _ e, State.entry?_setEntry]
    have := State.entry?_lt e
    by_cases h : i = k
    · simp [h, e, this]
    · simp [h]

/-- The holdoffs of distinct indices: each entry of them is counted once. -/
theorem entry?_foldl_holdoffStrobe (l : List (Fin 64)) (h : l.Nodup) (s : State) (i : Fin 64) :
    (l.foldl (fun t k => t.holdoffStrobe k.val) s).entry? i.val
      = if i ∈ l then (s.entry? i.val).map (countHoldoff s.sc.config) else s.entry? i.val := by
  induction l generalizing s with
  | nil => simp
  | cons k l ih =>
    obtain ⟨fresh, rest⟩ := List.nodup_cons.mp h
    rw [List.foldl_cons, ih rest, State.entry?_holdoffStrobe, State.sc_holdoffStrobe]
    by_cases g : i = k
    · subst g
      simp [fresh]
    · have : ¬i.val = k.val := fun e => g (Fin.ext e)
      simp [g, this]

/-- R13, R46: what the holdoffs make of an entry. -/
theorem State.entry?_holdoffsStrobe (s : State) (i : Fin 64) :
    s.holdoffsStrobe.entry? i.val = (s.entry? i.val).map (countHoldoff s.sc.config) := by
  unfold State.holdoffsStrobe tableIndices
  rw [entry?_foldl_holdoffStrobe _ (List.nodup_finRange 64), if_pos (List.mem_finRange i)]

theorem countHoldoff_of_ne (c : ConfigRecord) (e : Entry) (h : e.holdoff ≠ 1) :
    countHoldoff c e = { e with holdoff := e.holdoff - 1 } := by simp only [countHoldoff, if_neg h]

theorem countHoldoff_of_one (c : ConfigRecord) (e : Entry) (h : e.holdoff = 1) : countHoldoff c e = holdoffReachesZero c e := by
  simp only [countHoldoff, if_pos h]

/-- R46: the row for a holdoff that a strobe brings to 0. -/
theorem exec_holdoffExpiry_due (i : Fin 64) (e : Entry) (s : State) (h : s.entry? i.val = some e) (g : e.holdoff = 1) :
    exec (.holdoffExpiry i) s = .next (s.setEntry i.val (s.holdoffsStrobe.entry? i.val)) := by
  have row : exec (.holdoffExpiry i) s
      = .next (s.modifyEntry i.val fun e => if e.holdoff = 1 then holdoffReachesZero s.sc.config e else e) := rfl
  rw [row, State.modifyEntry_some _ _ _ _ h, s.entry?_holdoffsStrobe, h, Option.map_some, countHoldoff_of_one _ e g, if_pos g]

/-! ### A piece of the work beside its row -/

section
variable {s : State}

theorem slowTick_iff (tb : TimeBase) : tb.slowTick = true ↔ tb.frames.toNat % 64 = 0 := by simp [TimeBase.slowTick]

theorem doStrobeWork_silence_between (i : Fin 64) (h : s.tb.frames.toNat % 64 ≠ 0) : doStrobeWork s (.silence i) = s :=
  if_neg (mt (slowTick_iff s.tb).mp h)

theorem doStrobeWork_silence_tick (i : Fin 64) (h : s.tb.frames.toNat % 64 = 0) :
    doStrobeWork s (.silence i) = s.silenceTick i.val := if_pos ((slowTick_iff s.tb).mpr h)

/-- R80: the silence of an IDLE entry beside the row for its expiry. -/
theorem silence_beside_idleExpiry (i : Fin 64) (e : Entry) (n : Nat) (he : s.entry? i.val = some e) (hp : e.phase = .idle n) :
    (s.tb.frames.toNat % 64 ≠ 0 → doStrobeWork s (.silence i) = s)
    ∧ (s.tb.frames.toNat % 64 = 0 → n + 1 < s.sc.config.idleExpiry →
        doStrobeWork s (.silence i) = s.setEntry i.val (some { e with phase := .idle (n + 1) }))
    ∧ (s.tb.frames.toNat % 64 = 0 → s.sc.config.idleExpiry ≤ n + 1 →
        exec (.idleExpiry i) s = .next (doStrobeWork s (.silence i))) := by
  refine ⟨doStrobeWork_silence_between i, fun tick h => ?_, fun tick h => ?_⟩
  · simp only [doStrobeWork_silence_tick i tick, State.silenceTick, he, hp, if_neg (Nat.not_le_of_lt h)]
  · simp only [doStrobeWork_silence_tick i tick, exec, execIdleExpiry, State.silenceTick, he, hp, if_pos h]

/-- R98: a setup counter beside the row for its expiry. -/
theorem setup_beside_expiry (i : Fin 64) (r : SetupRecord) (h : s.setup? i.val = some r) :
    (2 ≤ r.counter → doStrobeWork s (.setup i) = s.countSetup i.val)
    ∧ (r.counter ≤ 1 → exec (.setupCounterExpiry i) s = .next (doStrobeWork s (.setup i))) := by
  refine ⟨fun g => ?_, fun g => ?_⟩
  · simp only [doStrobeWork, State.setupStrobe, h, if_neg (Nat.not_le_of_lt g)]
  · simp only [exec, execSetupCounterExpiry, doStrobeWork, State.setupStrobe, h, if_pos g]

/-- R102: a page's remaining count beside the row for its timeout. -/
theorem page_beside_timeout (h : Handset) (p : PageRecord) (hp : s.page? h = some p) :
    (2 ≤ p.remaining → doStrobeWork s (.page h) = s.countPage h)
    ∧ (p.remaining ≤ 1 → exec (.pageTimeout h) s = .next (doStrobeWork s (.page h))) := by
  refine ⟨fun g => ?_, fun g => ?_⟩
  · simp only [doStrobeWork, State.pageStrobe, hp, if_neg (Nat.not_le_of_lt g)]
  · simp only [exec, execPageTimeout, doStrobeWork, State.pageStrobe, hp, if_pos g]

/-- R88: a find record's remaining count beside the row for its expiry. -/
theorem find_beside_expiry (r : Fin 4) (f : FindRecord) (h : s.findRecord? r.val = some f) :
    (2 ≤ f.remaining →
      doStrobeWork s (.findRecord r) = s.setFind r.val (some { f with remaining := f.remaining - 1 }))
    ∧ (f.remaining ≤ 1 → exec (.findExpiry r) s = .next (doStrobeWork s (.findRecord r))) := by
  refine ⟨fun g => ?_, fun g => ?_⟩
  · simp only [doStrobeWork, State.findStrobe, h, if_neg (Nat.not_le_of_lt g)]
  · simp only [exec, execFindExpiry, doStrobeWork, State.findStrobe, h, if_pos g]

/-- R131, R134, R138, R141: an outbound record beside the row of its state. -/
theorem outbound_beside_rows (r : Fin 4) (o : OutRecord) (h : s.outRecord? r.val = some o) :
    (∀ m l, o.phase = .seeking m l → exec (.replyByMarkDue r) s = .next (doStrobeWork s (.outbound r)))
    ∧ (∀ t m c, o.phase = .switching t m c → exec (.switchMarkDueOutbound r) s = .next (doStrobeWork s (.outbound r)))
    ∧ (∀ l t m n, o.phase = .asking l t m n →
        (2 ≤ n → doStrobeWork s (.outbound r) = s.setOut r.val (some { o with phase := .asking l t m (n - 1) }))
        ∧ (n ≤ 1 → exec (.takeTimeout r) s = .next (doStrobeWork s (.outbound r))))
    ∧ (∀ t m c n, o.phase = .fallback t m c n →
        (2 ≤ n → doStrobeWork s (.outbound r) = s.setOut r.val (some { o with phase := .fallback t m c (n - 1) }))
        ∧ (n ≤ 1 → exec (.fallbackExpiry r) s = .next (doStrobeWork s (.outbound r)))) := by
  refine ⟨fun m l hp => ?_, fun t m c hp => ?_, fun l t m n hp => ⟨fun g => ?_, fun g => ?_⟩,
    fun t m c n hp => ⟨fun g => ?_, fun g => ?_⟩⟩
  · simp only [exec, execReplyByMarkDue, doStrobeWork, State.outStrobe, h, hp]
  · simp only [exec, execSwitchMarkDueOutbound, doStrobeWork, State.outStrobe, h, hp]
  · simp only [doStrobeWork, State.outStrobe, h, hp, if_neg (Nat.not_le_of_lt g)]
  · simp only [exec, execTakeTimeout, doStrobeWork, State.outStrobe, h, hp, if_pos g]
  · simp only [doStrobeWork, State.outStrobe, h, hp, if_neg (Nat.not_le_of_lt g)]
  · simp only [exec, execFallbackExpiry, doStrobeWork, State.outStrobe, h, hp, if_pos g]

/-- R156, R158: an inbound record beside the row of its state. -/
theorem inbound_beside_rows (r : Fin 4) (o : InRecord) (h : s.inRecord? r.val = some o) :
    (o.phase = .reserved → exec (.switchMarkDueInbound r) s = .next (doStrobeWork s (.inbound r)))
    ∧ (∀ n, o.phase = .awaiting n →
        (2 ≤ n → doStrobeWork s (.inbound r) = s.setIn r.val (some { o with phase := .awaiting (n - 1) }))
        ∧ (n ≤ 1 → exec (.arrivalWindowExpiry r) s = .next (doStrobeWork s (.inbound r)))) := by
  refine ⟨fun hp => ?_, fun n hp => ⟨fun g => ?_, fun g => ?_⟩⟩
  · simp only [exec, execSwitchMarkDueInbound, doStrobeWork, State.inStrobe, h, hp]
  · simp only [doStrobeWork, State.inStrobe, h, hp, if_neg (Nat.not_le_of_lt g)]
  · simp only [exec, execArrivalWindowExpiry, doStrobeWork, State.inStrobe, h, hp, if_pos g]

/-! ### Pieces with nothing to do -/

/-- R80: an entry that is not IDLE keeps no silence. -/
theorem doStrobeWork_silence_engaged (i : Fin 64) (h : ∀ e, s.entry? i.val = some e → e.engaged = true) :
    doStrobeWork s (.silence i) = s := by
  have nothing : s.silenceTick i.val = s := by
    unfold State.silenceTick
    split
    · rename_i e he
      have engaged := h e he
      split
      · rename_i hp
        simp [Entry.engaged, hp] at engaged
      all_goals rfl
    · rfl
  by_cases tick : s.tb.frames.toNat % 64 = 0
  · rw [doStrobeWork_silence_tick i tick, nothing]
  · exact doStrobeWork_silence_between i tick

theorem doStrobeWork_setup_none (i : Fin 64) (h : s.setup? i.val = none) : doStrobeWork s (.setup i) = s := by
  simp only [doStrobeWork, State.setupStrobe, h]

theorem doStrobeWork_find_none (r : Fin 4) (h : s.findRecord? r.val = none) : doStrobeWork s (.findRecord r) = s := by
  simp only [doStrobeWork, State.findStrobe, h]

theorem doStrobeWork_outbound_none (r : Fin 4) (h : s.outRecord? r.val = none) : doStrobeWork s (.outbound r) = s := by
  simp only [doStrobeWork, State.outStrobe, h]

theorem doStrobeWork_inbound_none (r : Fin 4) (h : s.inRecord? r.val = none) : doStrobeWork s (.inbound r) = s := by
  simp only [doStrobeWork, State.inStrobe, h]

/-! ### Station Control -/

/-- R171: the quiet-period counter beside the row for its expiry. -/
theorem quietPeriod_beside_expiry (n : Nat) (h : s.sc.station = .listening) (q : s.sc.quiet = some n) :
    (2 ≤ n → doStrobeWork s .quietPeriod = s.setQuiet (some (n - 1)))
    ∧ (n = 1 → exec .quietPeriodExpiry s = .next (doStrobeWork s .quietPeriod))
    ∧ (n = 0 → s.tb.known = false → doStrobeWork s .quietPeriod = s)
    ∧ (n = 0 → s.tb.known = true → doStrobeWork s .quietPeriod = s.becomeActive) := by
  refine ⟨fun g => ?_, ?_, ?_, ?_⟩
  · obtain ⟨k, rfl⟩ := Nat.exists_eq_add_of_le' g
    simp only [doStrobeWork, State.quietStrobe, h, q, if_true]
    rfl
  · rintro rfl
    simp only [exec, execQuietPeriodExpiry, doStrobeWork, State.quietStrobe, h, q, and_self, if_true]
  · rintro rfl unknown
    simp only [doStrobeWork, State.quietStrobe, h, q, unknown, if_true, Bool.false_eq_true, if_false]
  · rintro rfl known
    simp only [doStrobeWork, State.quietStrobe, h, q, known, if_true]

theorem doStrobeWork_quietPeriod_other (h : s.sc.station ≠ .listening) : doStrobeWork s .quietPeriod = s := if_neg h

theorem doStrobeWork_drainLimit_between (h : s.tb.frames.toNat % 64 ≠ 0) : doStrobeWork s .drainLimit = s :=
  if_neg (mt (slowTick_iff s.tb).mp h)

theorem doStrobeWork_drainLimit_tick (h : s.tb.frames.toNat % 64 = 0) : doStrobeWork s .drainLimit = s.drainTick :=
  if_pos ((slowTick_iff s.tb).mpr h)

theorem doStrobeWork_drainLimit_other (h : s.sc.station ≠ .draining) : doStrobeWork s .drainLimit = s := by
  by_cases tick : s.tb.frames.toNat % 64 = 0
  · rw [doStrobeWork_drainLimit_tick tick]
    exact if_neg h
  · exact doStrobeWork_drainLimit_between tick

/-- R173: the drain counter beside the row for its expiry. -/
theorem drainLimit_beside_expiry (n : Nat) (h : s.sc.station = .draining) (q : s.sc.drain = some n)
    (tick : s.tb.frames.toNat % 64 = 0) :
    (2 ≤ n → doStrobeWork s .drainLimit = s.setDrain (some (n - 1)))
    ∧ (n = 1 → exec .drainLimitExpiry s = .next (doStrobeWork s .drainLimit)) := by
  rw [doStrobeWork_drainLimit_tick tick]
  refine ⟨fun g => ?_, ?_⟩
  · obtain ⟨k, rfl⟩ := Nat.exists_eq_add_of_le' g
    simp only [State.drainTick, h, q, if_true]
    rfl
  · rintro rfl
    simp only [exec, execDrainLimitExpiry, State.drainTick, h, q, and_self, if_true]

end

/-- Settles O18: the order of the work, the holdoffs ahead of it, and each piece beside its row. -/
theorem strobeDoesTheWorkOfItsRows : Obligations.StrobeDoesTheWorkOfItsRows := by
  refine ⟨fun order s => rfl, fun loss order s => rfl, fun order s => s.strobeReport_of_perm order,
    fun order s => s.strobeReport_named_rest order, fun s => ?_, fun i e s he => ⟨fun h => ?_, exec_holdoffExpiry_due i e s he⟩,
    State.holdoffsStrobe_eq, fun s => rfl, fun s => ⟨_, rfl, rfl⟩, fun i e n s he hp => silence_beside_idleExpiry i e n he hp,
    fun i r s h => setup_beside_expiry i r h, fun h p s hp => page_beside_timeout h p hp,
    fun r f s h => find_beside_expiry r f h, fun r o s h => outbound_beside_rows r o h,
    fun r o s h => inbound_beside_rows r o h,
    fun i s => ⟨doStrobeWork_silence_engaged i, doStrobeWork_setup_none i⟩,
    fun r s => ⟨doStrobeWork_find_none r, doStrobeWork_outbound_none r, doStrobeWork_inbound_none r⟩,
    fun n s h q => quietPeriod_beside_expiry n h q,
    fun s => ⟨doStrobeWork_quietPeriod_other, doStrobeWork_drainLimit_other, doStrobeWork_drainLimit_between⟩,
    fun n s h q tick => drainLimit_beside_expiry n h q tick, fun s => rfl⟩
  · obtain ⟨measurement, slotPlanner, quietPeriod, drainLimit, occupancy⟩ := s.block_mem_strobeWork
    exact ⟨measurement, slotPlanner, quietPeriod, drainLimit, occupancy,
      fun i => ⟨s.silence_mem_strobeWork i, s.setup_mem_strobeWork i⟩, s.page_mem_strobeWork, s.record_mem_strobeWork⟩
  · rw [s.entry?_holdoffsStrobe, he, Option.map_some, countHoldoff_of_ne _ e h]

end Sys2Proof.Machine
end

section
/-! The requests of the Slot Planner and of the Measurement Unit: when each is accepted. -/
namespace Sys2Proof.Machine

/-- A chain of checks is passed when its first check is, and the rest. -/
theorem check_passed_iff {ρ : Type} (p : Prop) [Decidable p] (r : ρ) (rest : Option ρ) :
    (if p then some r else rest) = none ↔ ¬p ∧ rest = none := by
  split
  · rename_i h
    simp [h]
  · rename_i h
    simp [h]

theorem State.slotPending_iff (s : State) (slot : Nat) : s.slotPending slot = true ↔ ∃ c ∈ s.sp.changes, c.slot = slot := by
  simp [State.slotPending]

/-- R19: the four checks of a commit request. -/
theorem State.commitRefusal?_none_iff (s : State) (slot : Nat) : s.commitRefusal? slot = none ↔
    (1 ≤ slot ∧ slot ≤ 15) ∧ s.serving = true ∧ s.slotEntry slot = .free ∧ ∀ c ∈ s.sp.changes, c.slot ≠ slot := by
  rw [State.commitRefusal?, check_passed_iff, check_passed_iff, check_passed_iff, check_passed_iff]
  simp [State.slotPending]

/-- R23: the five checks of a plan change request. -/
theorem State.changeRefusal?_none_iff (s : State) (c : PlanChange) : s.changeRefusal? c = none ↔
    (1 ≤ c.slot ∧ c.slot ≤ 15) ∧ s.tb.known = true ∧ s.tb.within c.mark 1 128 = true
    ∧ (∃ h, (s.slotEntry c.slot).owner? = some h ∧ c.entry.owner? = some h)
    ∧ ((s.sp.changes.any fun d => d.slot == c.slot && d.mark == c.mark) = true ∨ s.sp.changes.length < 8) := by
  rw [State.changeRefusal?, check_passed_iff, check_passed_iff, check_passed_iff, check_passed_iff, check_passed_iff]
  have owner : ((s.slotEntry c.slot).isCommitted && (s.slotEntry c.slot).owner? == c.entry.owner?) = true ↔
      ∃ h, (s.slotEntry c.slot).owner? = some h ∧ c.entry.owner? = some h := by
    rw [SlotEntry.isCommitted, Bool.and_eq_true, beq_iff_eq]
    constructor
    · rintro ⟨committed, same⟩
      obtain ⟨h, hh⟩ := Option.isSome_iff_exists.mp committed
      exact ⟨h, hh, same ▸ hh⟩
    · rintro ⟨h, hh, hc⟩
      exact ⟨by rw [hh]; rfl, hh.trans hc.symm⟩
  simp only [← owner, not_not, Bool.not_eq_true', Bool.not_eq_false, Bool.or_eq_true, decide_eq_true_eq, Config.changePlaces,
    and_true]

/-- R64: the five checks of a targeted listen request. -/
theorem State.listenRefusal?_none_iff (s : State) (r : ListenRequest) : s.listenRefusal? r = none ↔
    s.tb.known = true ∧ s.tb.within r.replyBy 1 128 = true ∧ (1 ≤ r.cell.slot ∧ r.cell.slot ≤ 15)
    ∧ s.isHeld r.handset = false ∧ (s.mu.listens.any r.sameKey = true ∨ s.mu.listens.length < 8) := by
  rw [State.listenRefusal?, check_passed_iff, check_passed_iff, check_passed_iff, check_passed_iff, check_passed_iff]
  simp only [Bool.not_eq_true', Bool.not_eq_false, Bool.not_eq_true, Bool.and_eq_true, Bool.or_eq_true, decide_eq_true_eq,
    Config.listenPlaces, and_true]

theorem State.commit_accepted {s : State} {slot : Nat} (h : s.commitRefusal? slot = none) (e : SlotEntry) :
    s.commit slot e = s.writeSlot slot e := by
  unfold State.commit
  rw [h]

theorem State.commit_refused {s : State} {slot : Nat} (h : s.commitRefusal? slot ≠ none) (e : SlotEntry) :
    s.commit slot e = s := by
  unfold State.commit
  split
  · rename_i accepted
    exact absurd accepted h
  · rfl

theorem State.requestChange_accepted {s : State} {c : PlanChange} (h : s.changeRefusal? c = none) :
    s.requestChange c = s.admitChange c := by
  unfold State.requestChange
  rw [h]

theorem State.requestChange_refused {s : State} {c : PlanChange} (h : s.changeRefusal? c ≠ none) : s.requestChange c = s := by
  unfold State.requestChange
  split
  · rename_i accepted
    exact absurd accepted h
  · rfl

/-! ### The slot plan under restore, free and due changes -/

/-- R20: what a restore does to each slot. -/
theorem State.restoreSlot_held {s : State} {slot : Nat} {h : Handset} {c : Nat} (e : s.slotEntry slot = .held c h) :
    s.restoreSlot slot h = s.writeSlot slot (.bearer c h) := by simp [State.restoreSlot, e]

theorem State.restoreSlot_other {s : State} {slot : Nat} {h : Handset} (e : ∀ c, s.slotEntry slot ≠ .held c h) :
    s.restoreSlot slot h = s := by
  unfold State.restoreSlot
  split
  · rename_i c h' eq
    rw [if_neg]
    intro same
    exact e c (eq.trans (by rw [eq_of_beq same]))
  all_goals rfl

/-- R21, R33: a freed slot's MOVE goes with it. -/
theorem State.freeSlot_moves (s : State) (slot : Nat) (h : slot ≠ 0) :
    (s.freeSlot slot).sp.moves = s.sp.moves.filter fun m => m.slot != slot := by
  rw [State.freeSlot_sp s slot h]
  simp [SlotPlanner.write, SlotEntry.isBearerFor]

theorem State.freeSlot_changes (s : State) (slot : Nat) (h : slot ≠ 0) :
    (s.freeSlot slot).sp.changes = s.sp.changes.filter fun c => c.slot != slot := by
  rw [State.freeSlot_sp s slot h]

/-! ### Lookups that find nothing -/

theorem State.outOf_none_iff (s : State) (i : Nat) : s.outOf i = none ↔ ∀ r o, s.outRecord? r = some o → o.entry ≠ i := by
  rw [State.outOf, firstPlace_none]
  constructor
  · intro h r o record owner
    have := h r (State.outRecord?_lt record)
    rw [State.outRecord?] at record
    simp [record, outOwnedBy, owner] at this
  · intro h r _
    cases record : (s.he.outbound[r]?).join with
    | none => rfl
    | some o => simpa [outOwnedBy] using h r o record

theorem State.inOf_none_iff (s : State) (i : Nat) : s.inOf i = none ↔ ∀ r o, s.inRecord? r = some o → o.entry ≠ i := by
  rw [State.inOf, firstPlace_none]
  constructor
  · intro h r o record owner
    have := h r (State.inRecord?_lt record)
    rw [State.inRecord?] at record
    simp [record, inOwnedBy, owner] at this
  · intro h r _
    cases record : (s.he.inbound[r]?).join with
    | none => rfl
    | some o => simpa [inOwnedBy] using h r o record

end Sys2Proof.Machine
end

section
/-! What a command can do to the state, said once: a command is a chain of acts, and an act is one of the kinds below. An act
is the least piece of a handling that keeps every invariant of the part, so an invariant is proved act by act. A premise
of an act is what the command has found before it does it. -/
namespace Sys2Proof.Machine

/-! ### The acts -/

/-- A rewritten entry that is of the same handset, in the same state, with the same bearer cell. -/
structure Entry.Alike (e f : Entry) : Prop where
  handset : f.handset = e.handset
  cell : f.cell? = e.cell?
  isIdle : f.isIdle = e.isIdle
  isSetup : f.isSetup = e.isSetup
  isInCall : f.isInCall = e.isInCall
  isLeaving : f.isLeaving = e.isLeaving
  isArriving : f.isArriving = e.isArriving

/-- An outbound record that is not SWITCHING. -/
def OutPhase.NotSwitching (p : OutPhase) : Prop := ∀ target mark newCell, p ≠ .switching target mark newCell

/-- One act: from the first state it can lead to the second. -/
inductive State.Act : State → State → Prop where
  /-- The commands that wait are others. -/
  | waiting (s : State) (q : List Instr) : Act s (s.withPending q)
  | timeBase (s : State) (b : TimeBase) : Act s { s with tb := b }
  /-- The numbers the part gives out, and the allocation cursor. -/
  | numbers (s : State) (drawn : Nat) (find seek : BitVec 8) (cursor : Cell) (tag : BitVec 10) :
      Act s { s with
        drawn := drawn, rc := { s.rc with findNumber := find }, he := { s.he with seekNumber := seek }
        cc := { s.cc with allocCursor := cursor, tagSeq := tag } }
  -- the Host Link
  | post (s : State) (kind : EventKind) (h : Handset) (other : Nat) (tag : Tag) (reason : Reason) (mark : Mark) :
      Act s (s.postWithMark kind h other tag reason mark)
  | hostLink (s : State) (l : HostLink) (events : l.events.length ≤ s.hl.events.length) (lost : l.lost ≤ s.hl.lost) :
      Act s { s with hl := l }
  -- the Bus Interface
  | bus (s : State) (b : Bus) (queue : s.bus.queue.length ≤ 16 → b.queue.length ≤ 16)
      (rx : s.bus.rx.length ≤ 8 → b.rx.length ≤ 8) : Act s { s with bus := b }
  -- the Measurement Unit
  | measurement (s : State) (m : Measurement)
      (overheard : (m.overheard.map (·.handset)).Sublist (s.mu.overheard.map (·.handset)))
      (listens : m.listens.Sublist s.mu.listens) : Act s { s with mu := m }
  | hear (s : State) (h : Handset) (l : Nat) (c : Cell) (notHeld : s.isHeld h = false) : Act s (s.recordHearing h l c)
  | listen (s : State) (r : ListenRequest) (serving : s.serving = true) : Act s (s.registerListen r)
  -- Station Control
  | station (s : State) (c : StationControl) (config : c.config = s.sc.config ∨ ConfigRecord.InRange c.config)
      (serving : s.serving = true → c.station = .active ∨ c.station = .draining) : Act s { s with sc := c }
  /-- Service ends or begins: nothing is held and nothing overheard. -/
  | clear (s t : State) (empty : t.EmptyOutOfService) (overheard : t.mu.overheard = [])
      (config : t.sc.config = s.sc.config ∨ ConfigRecord.InRange t.sc.config) (queue : t.bus.queue.length ≤ s.bus.queue.length)
      (rx : t.bus.rx.length ≤ s.bus.rx.length) (events : t.hl.events.length ≤ s.hl.events.length)
      (lost : t.hl.lost ≤ s.hl.lost) : Act s t
  -- the Slot Planner
  | planner (s : State) (q : List Downlink) (cursor : Nat) (inForce : Vector PlanSlot 16) (sent : List SentMessage)
      (places : s.sp.beaconQ.length ≤ 8 → q.length ≤ 8) (empty : s.serving = false → s.sp.beaconQ = [] → q = []) :
      Act s { s with sp := { s.sp with beaconQ := q, cursor := cursor, inForce := inForce, sent := sent } }
  | commit (s : State) (slot : Nat) (e : SlotEntry) (accepted : s.commitRefusal? slot = none) : Act s (s.writeSlot slot e)
  | beacon (s : State) (serving : s.serving = true) : Act s (s.writeSlot 0 .beacon)
  | restore (s : State) (slot : Nat) (h : Handset) : Act s (s.restoreSlot slot h)
  | dueChanges (s : State) : Act s s.applyDueChanges
  | requestChange (s : State) (c : PlanChange) : Act s (s.requestChange c)
  | dropChanges (s : State) : Act s { s with sp := { s.sp with changes := [] } }
  | withdrawMove (s : State) (slot : Nat) : Act s (s.withdrawMove slot)
  -- the Registration Controller
  | find (s : State) (r : Nat) (f : Option FindRecord)
      (running : s.serving = true ∨ f = none ∨ s.findRecord? r ≠ none) : Act s (s.setFind r f)
  | rewrite (s : State) (i : Nat) (e f : Entry) (entry : s.entry? i = some e) (alike : e.Alike f) :
      Act s (s.setEntry i (some f))
  | freeIdle (s : State) (i : Nat) (e : Entry) (entry : s.entry? i = some e) (idle : e.isIdle = true) :
      Act s (s.setEntry i none)
  | attach (s : State) (i : Nat) (f : Entry) (free : s.entry? i = none) (notHeld : s.isHeld f.handset = false)
      (idle : f.isIdle = true) (serving : s.serving = true) : Act s ((s.setEntry i (some f)).becomesHeld f.handset)
  -- the Call Controller
  | pages (s : State) (l : List PageRecord) (rotation : Option Handset) (places : s.cc.pages.length ≤ 8 → l.length ≤ 8)
      (empty : s.serving = false → s.cc.pages = [] → l = []) :
      Act s { s with cc := { s.cc with pages := l, rotation := rotation } }
  | setups (s : State) (l : List SetupRecord) (fewer : (l.map (·.entry)).Sublist (s.cc.setups.map (·.entry))) :
      Act s { s with cc := { s.cc with setups := l } }
  | beginSetup (s : State) (i : Nat) (e : Entry) (c : Cell) (tag : Tag) (entry : s.entry? i = some e)
      (idle : e.isIdle = true) (bearer : 1 ≤ c.slot ∧ c.slot ≤ 15 ∧ (s.slotEntry c.slot).owner? = some e.handset) :
      Act s ((s.setEntry i (some { e with phase := .setup c tag Link.fresh })).addSetup i)
  | callUp (s : State) (i : Nat) (e f : Entry) (entry : s.entry? i = some e) (setup : e.isSetup = true)
      (handset : f.handset = e.handset) (cell : f.cell? = e.cell?) (inCall : f.isInCall = true) :
      Act s ((s.setEntry i (some f)).dropSetup i)
  | setupFails (s : State) (i : Nat) (e : Entry) (r : SetupRecord) (entry : s.entry? i = some e)
      (record : s.setup? i = some r) :
      Act s (((s.freeBearer e).setEntry i (some { e with phase := .idle 0 })).dropSetup i)
  /-- A call ends with all its records; its entry is freed or IDLE. -/
  | endCall (s : State) (i : Nat) (e : Entry) (f : Option Entry) (entry : s.entry? i = some e)
      (idle : ∀ x, f = some x → x.isIdle = true ∧ x.handset = e.handset) : Act s ((s.releaseCall i e).setEntry i f)
  -- the Handover Engine, serving side
  | fire (s : State) (r i : Nat) (e : Entry) (p : OutRecord) (m : Mark) (free : s.outRecord? r = none)
      (entry : s.entry? i = some e) (inCall : e.isInCall = true) (first : s.outOf i = none) (owner : p.entry = i)
      (seeking : p.phase = .seeking m []) : Act s (s.setOut r (some p))
  | rewriteOut (s : State) (r : Nat) (o p : OutRecord) (record : s.outRecord? r = some o) (owner : p.entry = o.entry)
      (side : p.phase.newCell? = none ↔ o.phase.newCell? = none) (notSwitching : o.phase.NotSwitching)
      (candidates : o.phase.candidates.length ≤ 3 → p.phase.candidates.length ≤ 3) : Act s (s.setOut r (some p))
  | dropOut (s : State) (r : Nat) (still : ∀ o, s.outRecord? r = some o →
      o.phase.NotSwitching ∨ ∀ e, s.entry? o.entry = some e → e.isLeaving = false) : Act s (s.setOut r none)
  /-- A TAKE proceeds, after its plan change. -/
  | proceed (s : State) (r : Nat) (o : OutRecord) (e : Entry) (c : Cell) (t : Tag) (k : Link) (target : Nat) (m : Mark)
      (newCell : Cell) (v : Move) (record : s.outRecord? r = some o) (side : o.phase.newCell? = none)
      (entry : s.entry? o.entry = some e) (inCall : e.phase = .inCall c t k) (slot : v.slot = c.slot) :
      Act s (((s.setEntry o.entry (some { e with phase := .leaving c t k })).setOut r
        (some { o with phase := .switching target m newCell })).setMove v)
  | startFallback (s : State) (r : Nat) (o : OutRecord) (target : Nat) (m : Mark) (c : Cell) (n : Nat)
      (record : s.outRecord? r = some o) (switching : o.phase = .switching target m c) :
      Act s ((s.withdrawMoveOf o.entry).setOut r (some { o with phase := .fallback target m c n }))
  /-- A LEAVING call is IN_CALL again and its record is freed. -/
  | stay (s : State) (r : Nat) (o : OutRecord) (e : Entry) (c : Cell) (t : Tag) (k : Link)
      (record : s.outRecord? r = some o) (entry : s.entry? o.entry = some e) (leaving : e.phase = .leaving c t k)
      (moves : ∀ m ∈ s.sp.moves, m.slot = c.slot → o.phase.NotSwitching) :
      Act s ((s.setEntry o.entry (some { e with phase := .inCall c t k })).setOut r none)
  | loseOut (s : State) (r : Nat) (o : OutRecord) (e : Entry) (record : s.outRecord? r = some o)
      (entry : s.entry? o.entry = some e) (leaving : e.isLeaving = true ∨ o.phase.newCell? ≠ none) :
      Act s (((s.freeBearer e).setEntry o.entry none).setOut r none)
  -- the Handover Engine, receiving side
  /-- A reservation, after its commit and before its plan change. -/
  | reserve (s : State) (r i : Nat) (f : Entry) (c : Cell) (t : Tag) (p : InRecord) (o : Overheard)
      (serving : s.serving = true) (free : s.entry? i = none) (index : i < 64) (fresh : s.overheard? f.handset = some o)
      (arriving : f.phase = .arriving c t) (record : s.inRecord? r = none) (owner : p.entry = i)
      (committed : ConfigRecord.InRange s.sc.config →
        1 ≤ c.slot ∧ c.slot ≤ 15 ∧ (s.slotEntry c.slot).owner? = some f.handset) :
      Act s (((s.becomesHeld f.handset).setEntry i (some f)).setIn r (some p))
  | rewriteIn (s : State) (r : Nat) (o p : InRecord) (record : s.inRecord? r = some o) (owner : p.entry = o.entry) :
      Act s (s.setIn r (some p))
  | dropIn (s : State) (r : Nat) : Act s (s.setIn r none)
  | arrive (s : State) (r : Nat) (o : InRecord) (e f : Entry) (record : s.inRecord? r = some o)
      (entry : s.entry? o.entry = some e) (arriving : e.isArriving = true) (handset : f.handset = e.handset)
      (cell : f.cell? = e.cell?) (inCall : f.isInCall = true) : Act s ((s.setEntry o.entry (some f)).setIn r none)
  | missArrival (s : State) (r : Nat) (o : InRecord) (e : Entry) (record : s.inRecord? r = some o)
      (entry : s.entry? o.entry = some e) : Act s (((s.freeBearer e).setEntry o.entry none).setIn r none)

/-- A chain of acts. -/
def State.Acts (s t : State) : Prop := Relation.ReflTransGen State.Act s t

theorem State.Acts.refl (s : State) : s.Acts s := Relation.ReflTransGen.refl

theorem State.Acts.trans {s t u : State} (h : s.Acts t) (g : t.Acts u) : s.Acts u := Relation.ReflTransGen.trans h g

theorem State.Act.acts {s t : State} (h : State.Act s t) : s.Acts t := Relation.ReflTransGen.single h

/-- What every act keeps, a chain of acts keeps. -/
theorem State.Acts.keeps {P : State → Prop} (acts : ∀ s t : State, State.Act s t → P s → P t) {s t : State} (h : s.Acts t)
    (g : P s) : P t := by
  induction h with
  | refl => exact g
  | tail _ last ih => exact acts _ _ last ih

theorem State.Acts.foldl {α : Type} (f : State → α → State) (h : ∀ (s : State) (a : α), s.Acts (f s a)) (l : List α)
    (s : State) : s.Acts (l.foldl f s) := by
  induction l generalizing s with
  | nil => exact State.Acts.refl s
  | cons a l ih => exact (h s a).trans (ih (f s a))

end Sys2Proof.Machine
end

section
/-! The shared operations as chains of acts. -/
namespace Sys2Proof.Machine

/-! ### Host Link, tallies, queues -/

theorem State.acts_post (s : State) (k : EventKind) (h : Handset) (o : Nat) (t : Tag) (r : Reason) :
    s.Acts (s.post k h o t r) := (State.Act.post s k h o t r s.tb.mark).acts

theorem State.acts_countBy (s : State) (k : Tally) (n : Nat) : s.Acts (s.countBy k n) :=
  (State.Act.hostLink s (s.countBy k n).hl (le_refl _) (le_refl _)).acts

theorem State.acts_count (s : State) (k : Tally) : s.Acts (s.count k) := s.acts_countBy k 1

theorem State.acts_respond (s : State) (r : Response) : s.Acts (s.respond r) :=
  (State.Act.hostLink s (s.respond r).hl (le_refl _) (le_refl _)).acts

theorem State.acts_callLost (s : State) (e : Entry) (o : Nat) (r : Reason) : s.Acts (s.callLost e o r) :=
  (s.acts_post _ _ _ _ _).trans (State.acts_count _ _)

theorem State.acts_moveCursor (s : State) (c : Cell) : s.Acts (s.moveCursor c) :=
  (State.Act.numbers s s.drawn s.rc.findNumber s.he.seekNumber c s.cc.tagSeq).acts

/-- A bus whose queues are no longer. -/
theorem State.acts_bus (s : State) (b : Bus) (queue : b.queue.length ≤ s.bus.queue.length)
    (rx : b.rx.length ≤ s.bus.rx.length) : s.Acts { s with bus := b } :=
  (State.Act.bus s b queue.trans rx.trans).acts

/-- An offered notice takes one more place at most, and only where there is one. -/
theorem State.acts_offer (s : State) (n : Notice) : s.Acts (s.offer n) := by
  obtain ⟨-, h | h⟩ | ⟨-, k, -, h⟩ | ⟨-, room, h⟩ := s.offer_cases n <;> rw [h]
  · exact State.Acts.refl s
  · exact s.acts_count _
  · exact s.acts_bus _ (by simp [Bus.coalesce]) (le_refl _)
  · exact (State.Act.bus s (s.bus.append n) (fun _ => by simpa [Bus.append] using Nat.succ_le_of_lt room) id).acts

/-! ### Entries -/

theorem Entry.Alike.refl (e : Entry) : e.Alike e := ⟨rfl, rfl, rfl, rfl, rfl, rfl, rfl⟩

/-- Entries that differ in level, armed flag, holdoff and claim-owed flag alone are alike. -/
theorem Entry.Alike.of_phase {e f : Entry} (h : f.handset = e.handset) (g : f.phase = e.phase) : e.Alike f := by
  refine ⟨h, ?_, ?_, ?_, ?_, ?_, ?_⟩ <;>
    simp only [Entry.cell?, Entry.isIdle, Entry.isSetup, Entry.isInCall, Entry.isLeaving, Entry.isArriving, g]

/-- An IDLE entry is alike an IDLE one of its handset. -/
theorem Entry.Alike.of_idle {e f : Entry} {m n : Nat} (h : f.handset = e.handset) (he : e.phase = .idle m)
    (hf : f.phase = .idle n) : e.Alike f := by
  refine ⟨h, ?_, ?_, ?_, ?_, ?_, ?_⟩ <;>
    simp only [Entry.cell?, Entry.isIdle, Entry.isSetup, Entry.isInCall, Entry.isLeaving, Entry.isArriving, he, hf]

theorem Entry.Alike.trans {e f g : Entry} (h : e.Alike f) (k : f.Alike g) : e.Alike g :=
  ⟨k.handset.trans h.handset, k.cell.trans h.cell, k.isIdle.trans h.isIdle, k.isSetup.trans h.isSetup,
    k.isInCall.trans h.isInCall, k.isLeaving.trans h.isLeaving, k.isArriving.trans h.isArriving⟩

/-- An entry changed into one alike. -/
theorem State.acts_modifyEntry (s : State) (i : Nat) (f : Entry → Entry) (alike : ∀ e, s.entry? i = some e → e.Alike (f e)) :
    s.Acts (s.modifyEntry i f) := by
  cases h : s.entry? i with
  | none =>
    rw [State.modifyEntry_none s i f h]
    exact State.Acts.refl s
  | some e =>
    rw [State.modifyEntry_some s i e f h]
    exact (State.Act.rewrite s i e _ h (alike e h)).acts

theorem State.acts_offerClaim (s : State) (i : Nat) : s.Acts (s.offerClaim i) := by
  unfold State.offerClaim
  split
  · exact (s.acts_offer _).trans (State.acts_modifyEntry _ _ _ fun _ _ => .of_phase rfl rfl)
  · exact State.Acts.refl s

theorem acts_readmitFrom (l : List Nat) (s : State) : s.Acts (readmitFrom l s) := by
  induction l generalizing s with
  | nil => exact State.Acts.refl s
  | cons i l ih =>
    unfold readmitFrom
    split
    · split
      · split
        · exact (s.acts_offerClaim i).trans (ih _)
        · exact State.Acts.refl s
      · exact ih s
    · exact ih s

theorem State.acts_occupancyFell (s : State) : s.Acts s.occupancyFell :=
  (s.acts_bus { s.bus with mode := modeAfterFall s.bus.mode s.occupancy } (le_refl _) (le_refl _)).trans (acts_readmitFrom _ _)

/-! ### Pages and the beacon queue -/

theorem State.acts_removePage (s : State) (h : Handset) : s.Acts (s.removePage h) := by
  unfold State.removePage CallControl.removePage
  split
  · exact State.Acts.refl s
  · rename_i k _
    exact (State.Act.pages s _ _ (List.length_eraseIdx_le _ k).trans (fun _ e => by simp [e])).acts

theorem State.acts_pageFails (s : State) (h : Handset) (r : Reason) : s.Acts (s.pageFails h r) := by
  unfold State.pageFails
  split
  · exact (s.acts_removePage h).trans (State.acts_post _ _ _ _ _ _)
  · exact State.Acts.refl s

theorem State.acts_offerBeacon (s : State) (m : Downlink) (serving : s.serving = true) : s.Acts (s.offerBeacon m) := by
  obtain ⟨room, h⟩ | ⟨-, h⟩ := s.offerBeacon_cases m <;> rw [h]
  · exact (State.Act.planner s (s.sp.beaconQ ++ [m]) s.sp.cursor s.sp.inForce s.sp.sent (fun _ => by simpa using room)
      (fun g => by simp [serving] at g)).acts
  · exact State.Acts.refl s

theorem State.acts_grant (s : State) (h : Handset) (serving : s.serving = true) : s.Acts (s.grant h) := by
  unfold State.grant
  split
  · exact (s.acts_offerBeacon _ serving).trans (State.acts_count _ _)
  · exact s.acts_count _

theorem State.acts_denyAttach (s : State) (h : Handset) (r : DenyReason) (serving : s.serving = true) :
    s.Acts (s.denyAttach h r) := (s.acts_offerBeacon _ serving).trans (State.acts_count _ _)

theorem State.acts_denyCall (s : State) (h : Handset) (r : DenyReason) (serving : s.serving = true) :
    s.Acts (s.denyCall h r) := s.acts_offerBeacon _ serving

/-! ### Drain completion -/

/-- A slot plan that is FREE throughout. -/
theorem State.slotEntry_cleared {s : State} (h : s.sp.plan = Vector.replicate 16 .free) (slot : Nat) :
    s.slotEntry slot = .free := by
  rw [s.slotEntry_of_plan _ h]
  by_cases g : slot < 16 <;> simp [g]

theorem State.acts_loseByDrain (s : State) (i : Nat) : s.Acts (s.loseByDrain i) := by
  unfold State.loseByDrain
  split
  · split
    · exact s.acts_callLost _ _ _
    · exact State.Acts.refl s
  · exact State.Acts.refl s

/-- R174: after drain completion's losses are posted, everything but the kept state goes at once, and LEFT is posted. -/
theorem State.acts_completeDrain (s : State) (reason : Reason) : s.Acts (s.completeDrain reason) := by
  have lost := State.Acts.foldl State.loseByDrain State.acts_loseByDrain (List.range 64) s
  unfold State.completeDrain State.clearService
  generalize (List.range 64).foldl State.loseByDrain s = t at lost ⊢
  let cleared : State := { t with
    sp := { t.sp.clearPlan with beaconQ := [] }
    mu := { t.mu with overheard := [], listens := [] }
    rc := { t.rc with table := Vector.replicate 64 none, finds := Vector.replicate 4 none }
    cc := { t.cc with setups := [], pages := [], rotation := none }
    he := { t.he with outbound := Vector.replicate 4 none, inbound := Vector.replicate 4 none }
    bus := t.bus.clear
    sc := { t.sc with station := .configured, drain := none } }
  have empty : cleared.EmptyOutOfService :=
    ⟨allFree_replicate _, allFree_replicate _, rfl, rfl, allFree_replicate _, allFree_replicate _,
      State.slotEntry_cleared rfl, rfl, rfl, rfl, rfl⟩
  have clear : t.Acts cleared := (State.Act.clear t cleared empty rfl (Or.inl rfl) t.bus.clear_length
    (by rw [t.bus.clear_rest.1]; exact Nat.zero_le _) (le_refl _) (le_refl _)).acts
  exact (lost.trans clear).trans (cleared.acts_post .left 0 0 (BitVec.ofNat 16 s.entriesUsed) reason)

theorem State.acts_drainTest (s : State) : s.Acts s.drainTest := by
  unfold State.drainTest
  split
  · exact s.acts_completeDrain _
  · exact State.Acts.refl s

/-! ### Records found -/

theorem State.acts_freeEntry_idle (s : State) (i : Nat) (e : Entry) (h : s.entry? i = some e) (idle : e.isIdle = true) :
    s.Acts (s.freeEntry i) := by
  rw [State.freeEntry_some s i e h]
  exact (s.acts_removePage _).trans (State.Act.freeIdle _ i e (by simpa using h) idle).acts

end Sys2Proof.Machine
end

section
/-! The handlings of registration, calls and handover as chains of acts (chapters 5, 6, 8 and 9). -/
namespace Sys2Proof.Machine

/-! ### The end of a call -/

theorem State.serving_congr {s t : State} (h : t.sc = s.sc) : t.serving = s.serving := by
  simp only [State.serving, h]

theorem State.serving_of_isActive {s : State} (h : s.isActive = true) : s.serving = true := by
  simp only [State.serving, Bool.or_eq_true]
  exact Or.inl h

/-- A write of the table and what it does not read may change places. -/
theorem State.setEntry_callLost (s : State) (i : Nat) (x : Option Entry) (e : Entry) (o : Nat) (r : Reason) :
    (s.callLost e o r).setEntry i x = (s.setEntry i x).callLost e o r := rfl

theorem State.setEntry_removePage (s : State) (i : Nat) (x : Option Entry) (h : Handset) :
    (s.removePage h).setEntry i x = (s.setEntry i x).removePage h := rfl

theorem State.acts_clearTheCall (s : State) (i : Nat) (e : Entry) (reason : Reason) (h : s.entry? i = some e) :
    s.Acts (s.clearTheCall i e reason) := by
  unfold State.clearTheCall State.toIdle
  rw [State.modifyEntry_some _ i e _ (by simpa using h)]
  refine State.Acts.trans (State.Act.endCall s i e _ h ?_).acts ((State.acts_post _ _ _ _ _ _).trans (State.acts_drainTest _))
  rintro x ⟨⟩
  exact ⟨rfl, rfl⟩

theorem State.acts_dropCall (s : State) (i : Nat) (e : Entry) (h : s.entry? i = some e) : s.Acts (s.dropCall i e) := by
  unfold State.dropCall State.toIdle
  rw [State.modifyEntry_some _ i e _ (by simpa using h)]
  refine State.Acts.trans (State.Act.endCall s i e _ h ?_).acts ((State.acts_callLost _ _ _ _).trans (State.acts_drainTest _))
  rintro x ⟨⟩
  exact ⟨rfl, rfl⟩

theorem State.acts_setupFails (s : State) (i : Nat) (e : Entry) (r : SetupRecord) (d : Bool) (h : s.entry? i = some e)
    (g : s.setup? i = some r) : s.Acts (s.setupFails i e d) := by
  unfold State.setupFails State.toIdle
  rw [State.modifyEntry_some _ i e _ (by simpa using h)]
  exact (State.Act.setupFails s i e r h g).acts.trans ((State.acts_post _ _ _ _ _ _).trans (State.acts_drainTest _))

/-! ### Registration (chapter 5) -/

theorem State.acts_becomesHeld (s : State) (h : Handset) : s.Acts (s.becomesHeld h) :=
  (State.Act.measurement s (s.becomesHeld h).mu (List.filter_sublist.map _) List.filter_sublist).acts

theorem State.isHeld_of_find?_none {s : State} {h : Handset} (f : s.find? h = none) : s.isHeld h = false := by
  rw [State.find?_none_iff] at f
  simp [State.isHeld, f]

theorem State.acts_attachNew (s : State) (h : Handset) (epoch : BitVec 8) (l : Nat) (serving : s.serving = true)
    (notHeld : s.find? h = none) : s.Acts (s.attachNew h epoch l) := by
  unfold State.attachNew
  split
  · rename_i i hi
    refine State.Acts.trans (State.Act.attach s i (attachedEntry h epoch l) (State.freeIndex_some hi).2
      (State.isHeld_of_find?_none notHeld) rfl serving).acts ?_
    exact ((State.acts_grant _ _ ((State.serving_congr (by simp)).trans serving)).trans (State.acts_offerClaim _ _)).trans
      (State.acts_post _ _ _ _ _ _)
  · exact s.acts_denyAttach _ _ serving

/-- R76: a new tenure ends the call, if there is one, and leaves the entry IDLE. -/
theorem State.acts_newTenure (s : State) (i : Nat) (e : Entry) (epoch : BitVec 8) (l : Nat) (serving : s.serving = true)
    (h : s.entry? i = some e) : s.Acts (s.newTenure i e epoch l) := by
  have idle : s.Acts (((s.endTenure i e).removePage e.handset).setEntry i
      (some { e with stamp := { epoch := epoch, hop := 0 }, phase := .idle 0, level := filterStart l })) := by
    unfold State.endTenure
    split
    · rw [State.setEntry_removePage, State.setEntry_callLost]
      refine State.Acts.trans (State.Act.endCall s i e _ h ?_).acts
        ((State.acts_callLost _ e 0 .reattach).trans (State.acts_removePage _ e.handset))
      rintro x ⟨⟩
      exact ⟨rfl, rfl⟩
    · rename_i notEngaged
      obtain ⟨n, hp⟩ : ∃ n, e.phase = .idle n := by
        cases hp : e.phase <;> simp [Entry.engaged, hp] at notEngaged ⊢
      refine (s.acts_removePage e.handset).trans (State.Act.rewrite _ i e _ (by simpa using h) ?_).acts
      exact .of_idle rfl hp rfl
  have entry : ((s.endTenure i e).removePage e.handset).entry? i = some e := by
    unfold State.endTenure
    split <;> simpa using h
  unfold State.newTenure
  rw [State.modifyEntry_some _ i e _ entry]
  have sc : (s.endTenure i e).sc = s.sc := by unfold State.endTenure; split <;> simp
  exact ((idle.trans (State.acts_grant _ _ ((State.serving_congr (by simp [sc])).trans serving))).trans
    (State.acts_offerClaim _ _)).trans (State.acts_post _ _ _ _ _ _)

theorem State.acts_takeAttach (s : State) (h : Handset) (epoch : BitVec 8) (l : Nat) (serving : s.serving = true) :
    s.Acts (s.takeAttach h epoch l) := by
  unfold State.takeAttach
  split
  · exact s.acts_denyAttach _ _ serving
  · split
    · rename_i f
      exact s.acts_attachNew _ _ _ serving f
    · rename_i f
      split
      · exact s.acts_grant _ serving
      · split
        · exact s.acts_newTenure _ _ _ _ serving (State.find?_some f).2.1
        · exact s.acts_denyAttach _ _ serving

theorem Entry.alike_spoken (e : Entry) : e.Alike e.spoken := by
  unfold Entry.spoken
  split
  · rename_i hp
    exact .of_idle rfl hp rfl
  all_goals exact .refl e

theorem State.acts_hearHeld (s : State) (i l : Nat) : s.Acts (s.hearHeld i l) :=
  s.acts_modifyEntry i _ fun e _ => e.alike_spoken.trans (.of_phase rfl rfl)

theorem State.acts_hearUplink (s : State) (h : Handset) (l : Nat) : s.Acts (s.hearUplink h l) := by
  unfold State.hearUplink
  split
  · exact s.acts_hearHeld _ _
  · exact State.Acts.refl s

theorem State.acts_takePresence (s : State) (h : Handset) (l : Nat) (serving : s.serving = true) :
    s.Acts (s.takePresence h l) := by
  unfold State.takePresence
  split
  · exact s.acts_hearHeld _ _
  · exact s.acts_denyAttach _ _ serving

theorem State.acts_expireIdle (s : State) (i : Nat) (e : Entry) (h : s.entry? i = some e) (idle : e.isIdle = true) :
    s.Acts (s.expireIdle i e) := (s.acts_freeEntry_idle i e h idle).trans (State.acts_post _ _ _ _ _ _)

/-- R82: an entry that a newer stamp removes. -/
theorem State.acts_supersedeEntry (s : State) (i : Nat) (e : Entry) (sender : Nat) (h : s.entry? i = some e) :
    s.Acts (s.supersedeEntry i e sender) := by
  unfold State.supersedeEntry
  split
  · rw [State.freeEntry_some _ i e (by simpa using h)]
    refine State.Acts.trans (State.Act.endCall s i e none h (by simp)).acts
      ((State.acts_removePage _ e.handset).trans ((State.acts_post _ .detached e.handset sender e.tag .supersededCall).trans
        (State.acts_drainTest _)))
  · rename_i notEngaged
    exact (s.acts_freeEntry_idle i e h (by simp [Entry.isIdle_eq, notEngaged])).trans (State.acts_post _ _ _ _ _ _)

theorem State.acts_supersede (s : State) (n : Notice) : s.Acts (s.supersede n) := by
  unfold State.supersede
  split
  · exact State.Acts.refl s
  · rename_i i e f
    split
    · exact s.acts_supersedeEntry _ _ _ (State.find?_some f).2.1
    · exact s.acts_post _ _ _ _ _
    · exact s.acts_post _ _ _ _ _
    · unfold State.correct
      split
      case h_4 | h_5 => exact State.Acts.refl s
      all_goals exact s.acts_offerClaim i

/-- The loss or success of an outbound record's call frees its slot, its entry and the record. -/
theorem State.acts_endHandover (s u : State) (r : Nat) (o : OutRecord) (e : Entry) (record : s.outRecord? r = some o)
    (entry : s.entry? o.entry = some e) (leaving : e.isLeaving = true ∨ o.phase.newCell? ≠ none)
    (kind : EventKind) (other : Nat) (reason : Reason) (k : Tally)
    (eq : u = (((((s.freeBearer e).post kind e.handset other e.tag reason).count k).freeEntry o.entry).setOut r none)) :
    s.Acts u := by
  rw [eq, State.freeEntry_some _ o.entry e (by simpa using entry)]
  refine State.Acts.trans (State.Act.loseOut s r o e record entry leaving).acts ?_
  exact ((State.acts_post _ kind e.handset other e.tag reason).trans (State.acts_count _ k)).trans
    (State.acts_removePage _ e.handset)

/-- R83: what a CLAIM of success has found. -/
theorem State.claimOfSuccess?_some {s : State} {n : Notice} {r i : Nat} {e : Entry}
    (h : s.claimOfSuccess? n = some (r, i, e)) :
    s.entry? i = some e ∧ s.outOf i = some r ∧ e.isLeaving = true := by
  unfold State.claimOfSuccess? at h
  split at h
  · simp at h
  · rename_i f
    split at h
    · simp at h
    · rename_i hr
      split at h
      · rename_i cond
        simp only [Bool.and_eq_true] at cond
        obtain ⟨⟩ := h
        exact ⟨(State.find?_some f).2.1, hr, cond.1.1⟩
      · simp at h

theorem State.acts_takeClaim (s : State) (n : Notice) : s.Acts (s.takeClaim n) := by
  unfold State.takeClaim
  split
  · rename_i r i e h
    obtain ⟨entry, hr, leaving⟩ := State.claimOfSuccess?_some h
    obtain ⟨o, record, rfl⟩ := State.outOf_some hr
    exact (s.acts_endHandover _ r o e record entry (Or.inl leaving) _ _ _ _ rfl).trans (State.acts_drainTest _)
  · exact s.acts_supersede n

theorem State.acts_takeAnswer (s : State) (n : Notice) (number : BitVec 8) (inCall : Bool) :
    s.Acts (s.takeAnswer n number inCall) := by
  unfold State.takeAnswer
  split
  · split
    · rename_i f hf
      split
      · exact (State.Act.find s _ _ (Or.inr (Or.inr (by simp [hf])))).acts
      · exact State.Acts.refl s
    · exact State.Acts.refl s
  · exact State.Acts.refl s

theorem State.acts_reportFind (s : State) (f : FindRecord) : s.Acts (s.reportFind f) := by
  unfold State.reportFind
  split
  · exact s.acts_post _ _ _ _ _
  · split <;> exact s.acts_post _ _ _ _ _

theorem State.acts_expireFind (s : State) (r : Nat) (f : FindRecord) : s.Acts (s.expireFind r f) :=
  (State.Act.find s r none (Or.inr (Or.inl rfl))).acts.trans (State.acts_reportFind _ _)

theorem State.acts_takeFind (s : State) (n : Notice) (number : BitVec 8) : s.Acts (s.takeFind n number) := by
  unfold State.takeFind
  split
  · split
    · exact State.Acts.refl s
    · exact s.acts_offer _
  · exact State.Acts.refl s

/-! ### Calls (chapter 6) -/

/-- A selection moves the cursor, and its commit is one that the slot plan accepts. -/
theorem acts_selectCommit (h : Handset) (n : Nat) (s : State) : s.Acts (selectCommit h n s).2 := by
  induction n generalizing s with
  | zero => exact State.Acts.refl s
  | succ n ih =>
    unfold selectCommit
    split
    · exact State.Acts.refl s
    · split
      · rename_i accepted
        exact (s.acts_moveCursor _).trans (State.Act.commit _ _ _ accepted).acts
      · exact (s.acts_moveCursor _).trans (ih _)

/-- What a selection that commits has committed. -/
theorem selectCommit_committed (h : Handset) (n : Nat) (s : State) (c : Cell) (t : State)
    (g : selectCommit h n s = (some c, t)) :
    1 ≤ c.slot ∧ c.slot ≤ 15 ∧ (t.slotEntry c.slot).owner? = some h := by
  induction n generalizing s with
  | zero => simp [selectCommit] at g
  | succ n ih =>
    unfold selectCommit at g
    split at g
    · simp at g
    · split at g
      · rename_i c' _ _ accepted
        obtain ⟨rfl, rfl⟩ := Prod.mk.inj g |>.imp Option.some.inj id
        obtain ⟨range, -⟩ := (State.commitRefusal?_none_iff _ _).mp accepted
        exact ⟨range.1, range.2, by rw [State.slotEntry_writeSlot_self _ _ _ (by omega)]; rfl⟩
      · exact ih _ g

/-- A selection leaves the attachment table and the station as they are. -/
theorem selectCommit_keeps (h : Handset) (n : Nat) (s : State) :
    (selectCommit h n s).2.rc = s.rc ∧ (selectCommit h n s).2.sc = s.sc := by
  induction n generalizing s with
  | zero => exact ⟨rfl, rfl⟩
  | succ n ih =>
    unfold selectCommit
    split
    · exact ⟨rfl, rfl⟩
    · split
      · exact ⟨rfl, rfl⟩
      · exact ih _

theorem State.acts_beginSetup (s : State) (i : Nat) (e : Entry) (c : Cell) (tag : Tag) (serving : s.serving = true)
    (entry : s.entry? i = some e) (idle : e.isIdle = true)
    (bearer : 1 ≤ c.slot ∧ c.slot ≤ 15 ∧ (s.slotEntry c.slot).owner? = some e.handset) :
    s.Acts (s.beginSetup i e.handset c tag) := by
  unfold State.beginSetup
  rw [State.modifyEntry_some s i e _ entry]
  exact (State.Act.beginSetup s i e c tag entry idle bearer).acts.trans
    (State.acts_offerBeacon _ _ ((State.serving_congr (by simp)).trans serving))

/-- R95, R101: a setup on the cell that a selection has committed, after what is done with the page or the tag. -/
theorem State.acts_setup_selected {s t u : State} {i : Nat} {e : Entry} {c : Cell} {n : Nat} (tag : Tag)
    (serving : s.serving = true) (entry : s.entry? i = some e) (idle : e.isIdle = true)
    (g : selectCommit e.handset n s = (some c, t)) (between : t.Acts u) (rc : u.rc = t.rc) (sc : u.sc = t.sc)
    (sp : u.sp = t.sp) : s.Acts (u.beginSetup i e.handset c tag) := by
  have moved := acts_selectCommit e.handset n s
  have keeps := selectCommit_keeps e.handset n s
  have committed := selectCommit_committed _ _ _ _ _ g
  rw [g] at moved keeps
  have plan : u.slotEntry c.slot = t.slotEntry c.slot := by simp only [State.slotEntry, sp]
  refine (moved.trans between).trans (u.acts_beginSetup i e c tag ?_ ?_ idle (plan ▸ committed))
  · exact (State.serving_congr (sc.trans keeps.2)).trans serving
  · rw [State.entry?_congr (rc.trans keeps.1), entry]

theorem State.acts_denied_selection {s t : State} {h : Handset} {n : Nat} {c : Option Cell} (serving : s.serving = true)
    (g : selectCommit h n s = (c, t)) (r : DenyReason) : s.Acts (t.denyCall h r) := by
  have moved := acts_selectCommit h n s
  have keeps := selectCommit_keeps h n s
  rw [g] at moved keeps
  exact moved.trans (t.acts_denyCall h r ((State.serving_congr keeps.2).trans serving))

theorem State.acts_setUpCall (s : State) (i : Nat) (e : Entry) (serving : s.serving = true) (entry : s.entry? i = some e)
    (idle : e.isIdle = true) : s.Acts (s.setUpCall i e.handset) := by
  unfold State.setUpCall
  split
  · rename_i g
    exact State.acts_denied_selection serving g _
  · rename_i c t g
    split
    · exact State.acts_setup_selected _ serving entry idle g (t.acts_removePage _) rfl rfl rfl
    · have numbered : t.Acts t.advanceTag :=
        (State.Act.numbers t t.drawn t.rc.findNumber t.he.seekNumber t.cc.allocCursor (t.cc.tagSeq + 1)).acts
      exact State.acts_setup_selected _ serving entry idle g numbered rfl rfl rfl

theorem State.acts_setUpReply (s : State) (i : Nat) (e : Entry) (tag : Tag) (serving : s.serving = true)
    (entry : s.entry? i = some e) (idle : e.isIdle = true) : s.Acts (s.setUpReply i e.handset tag) := by
  unfold State.setUpReply
  split
  · rename_i g
    exact State.acts_denied_selection serving g _
  · rename_i c t g
    exact State.acts_setup_selected _ serving entry idle g (t.acts_removePage _) rfl rfl rfl

theorem State.acts_takeCall (s : State) (h : Handset) (serving : s.serving = true) : s.Acts (s.takeCall h) := by
  unfold State.takeCall
  split
  · exact (s.acts_denyCall _ _ serving).trans (State.acts_pageFails _ _ _)
  · split
    · exact s.acts_denyCall _ _ serving
    · rename_i i e f
      obtain ⟨-, entry, rfl⟩ := State.find?_some f
      split
      · exact s.acts_denyCall _ _ serving
      · rename_i idle
        exact s.acts_setUpCall i e serving entry (by simpa using idle)

theorem State.acts_takePageReply (s : State) (h : Handset) (tag : Tag) (serving : s.serving = true) :
    s.Acts (s.takePageReply h tag) := by
  unfold State.takePageReply
  split
  · exact (s.acts_denyCall _ _ serving).trans (State.acts_pageFails _ _ _)
  · split
    · exact s.acts_denyCall _ _ serving
    · rename_i i e f
      obtain ⟨-, entry, rfl⟩ := State.find?_some f
      split
      · exact s.acts_denyCall _ _ serving
      · rename_i idle
        split
        · exact s.acts_denyCall _ _ serving
        · split
          · exact State.Acts.refl s
          · exact s.acts_setUpReply i e tag serving entry (by simpa using idle)

theorem State.acts_callUp (s : State) (i : Nat) (e : Entry) (c : Cell) (t : Tag) (k : Link) (entry : s.entry? i = some e)
    (setup : e.phase = .setup c t k) : s.Acts (s.callUp i e c t k) := by
  unfold State.callUp
  refine State.Acts.trans (State.Act.callUp s i e { e with phase := .inCall c t k, armed := true, holdoff := 0 } entry ?_ rfl
    ?_ rfl).acts ((State.acts_post _ _ _ _ _ _).trans (State.acts_count _ _))
  · simp only [Entry.isSetup, setup]
  · simp only [Entry.cell?, setup]

theorem State.acts_callTakesReport (s : State) (i : Nat) (r : LinkReport) : s.Acts (s.callTakesReport i r) := by
  unfold State.callTakesReport
  split
  · rename_i e entry
    split
    · rename_i phase
      split
      · split
        · exact s.acts_clearTheCall _ _ _ entry
        · exact s.acts_callUp _ _ _ _ _ entry phase
      · exact State.Acts.refl s
    · split
      · exact s.acts_clearTheCall _ _ _ entry
      · split
        · exact s.acts_dropCall _ _ entry
        · exact State.Acts.refl s
    · split
      · exact s.acts_clearTheCall _ _ _ entry
      · exact State.Acts.refl s
    · exact State.Acts.refl s
    · exact State.Acts.refl s
  · exact State.Acts.refl s

end Sys2Proof.Machine
end

section
/-! The Handover Engine, the radio and the bus as chains of acts (chapters 2, 3, 7, 8 and 9). -/
namespace Sys2Proof.Machine

/-! ### The serving side (chapter 8) -/

theorem State.acts_failEntry (s : State) (i : Nat) (reason : Reason) (other : Nat) : s.Acts (s.failEntry i reason other) := by
  unfold State.failEntry
  split
  · exact ((s.acts_post _ _ _ _ _).trans (State.acts_count _ _)).trans
      (State.acts_modifyEntry _ _ _ fun _ _ => .of_phase rfl rfl)
  · exact State.Acts.refl s

/-- An outbound record's place is free before or after the failure of its entry is told. -/
theorem State.setOut_failEntry (s : State) (r i : Nat) (o : Option OutRecord) (reason : Reason) (other : Nat) :
    (s.failEntry i reason other).setOut r o = (s.setOut r o).failEntry i reason other := by
  unfold State.failEntry State.modifyEntry
  have same : (s.setOut r o).entry? i = s.entry? i := by simp
  rw [same]
  cases h : s.entry? i with
  | none => rfl
  | some e => simp [h]; rfl

/-- An attempt fails once its record may be freed. -/
theorem State.acts_failAttempt {s t : State} {r : Nat} {o : OutRecord} (record : t.outRecord? r = some o)
    (freed : s.Acts (t.setOut r none)) (reason : Reason) (other : Nat) : s.Acts (t.failAttempt r reason other) := by
  unfold State.failAttempt
  rw [record]
  dsimp only
  rw [State.setOut_failEntry]
  exact freed.trans (State.acts_failEntry _ _ _ _)

theorem State.acts_dropOut {s : State} {r : Nat} {o : OutRecord} (record : s.outRecord? r = some o)
    (still : o.phase.NotSwitching) : s.Acts (s.setOut r none) :=
  (State.Act.dropOut s r fun _ hp => Or.inl (Option.some.inj (record.symm.trans hp) ▸ still)).acts

theorem OutPhase.notSwitching_of_newCell? {p : OutPhase} (h : p.newCell? = none) : p.NotSwitching := by
  rintro target mark newCell rfl
  cases h

theorem State.outRecord?_congr {s t : State} (h : t.he = s.he) (r : Nat) : t.outRecord? r = s.outRecord? r := by
  simp only [State.outRecord?, h]

/-- R132 to R134: the record of an attempt is ASKING a candidate of the list, or the attempt fails. -/
theorem acts_askFrom (r : Nat) (o : OutRecord) (e : Entry) (l : List Candidate) (reason : Reason) (other : Nat) (s : State)
    (record : s.outRecord? r = some o) (side : o.phase.newCell? = none)
    (fewer : o.phase.candidates.length ≤ 3 → l.length ≤ 3) : s.Acts (askFrom r o e l reason other s) := by
  have still := OutPhase.notSwitching_of_newCell? side
  induction l generalizing reason other with
  | nil => exact State.acts_failAttempt record (State.acts_dropOut record still) _ _
  | cons c l ih =>
    unfold askFrom
    split
    · refine (s.acts_offer _).trans (State.Act.rewriteOut _ r o { o with
        phase := .asking (c :: l) c.station (s.tb.ahead s.sc.config.lead) s.sc.config.takeTimeout } ?_ rfl ?_ still
        fewer).acts
      · exact (State.outRecord?_congr (s := s) (by simp) r).trans record
      · exact ⟨fun _ => side, fun _ => rfl⟩
    · exact ih _ _ fun h => Nat.le_of_succ_le (fewer h)

theorem State.acts_closeWindow (s : State) (r : Nat) : s.Acts (s.closeWindow r) := by
  unfold State.closeWindow
  split
  · rename_i o record
    split
    · rename_i phase
      exact acts_askFrom _ _ _ _ _ _ s record (by rw [phase]; rfl)
        (fun h => (List.length_filter_le _ _).trans (by simpa [phase, OutPhase.candidates] using h))
    all_goals exact State.Acts.refl s
  · exact State.Acts.refl s

theorem State.acts_nextCandidate (s : State) (r : Nat) (reason : Reason) : s.Acts (s.nextCandidate r reason) := by
  unfold State.nextCandidate
  split
  · rename_i o record
    split
    · rename_i phase
      exact acts_askFrom _ _ _ _ _ _ s record (by rw [phase]; rfl)
        (fun h => (List.length_filter_le _ _).trans (by simpa [phase, OutPhase.candidates] using h))
    all_goals exact State.Acts.refl s
  · exact State.Acts.refl s

theorem enterCandidate_length (c : Candidate) (l : List Candidate) : (enterCandidate c l).length ≤ 3 :=
  List.length_take_le _ _

theorem State.acts_takeOffer (s : State) (n : Notice) (seek : BitVec 8) (merit freeSlots : Nat) :
    s.Acts (s.takeOffer n seek merit freeSlots) := by
  unfold State.takeOffer
  split
  · rename_i r o found
    split
    · rename_i m l phase
      have side : o.phase.newCell? = none := by rw [phase]; rfl
      exact (State.Act.rewriteOut s r o { o with phase := .seeking m _ } (State.outFor?_some found).1 rfl
        ⟨fun _ => side, fun _ => rfl⟩ (OutPhase.notSwitching_of_newCell? side) fun _ => enterCandidate_length _ l).acts
    all_goals exact State.Acts.refl s
  · exact State.Acts.refl s

theorem State.acts_takeDecline (s : State) (n : Notice) (seek : BitVec 8) (reason : DeclineReason) :
    s.Acts (s.takeDecline n seek reason) := by
  unfold State.takeDecline
  split
  · split
    · split
      · exact s.acts_nextCandidate _ _
      · exact State.Acts.refl s
    all_goals exact State.Acts.refl s
  · exact State.Acts.refl s

/-- R135: a TAKE that proceeds: its plan change is accepted, then the rest follows. -/
theorem State.acts_proceed (s : State) (r : Nat) (o : OutRecord) (e : Entry) (c : Cell) (t : Tag) (k : Link) (target : Nat)
    (m : Mark) (newCell : Cell) (record : s.outRecord? r = some o) (side : o.phase.newCell? = none)
    (entry : s.entry? o.entry = some e) (inCall : e.phase = .inCall c t k)
    (accepted : s.changeRefusal? (heldChange c e.handset m) = none) :
    s.Acts (s.proceed r o e c t k target m newCell) := by
  have changed := (State.Act.requestChange s (heldChange c e.handset m)).acts
  rw [State.requestChange_accepted accepted] at changed
  exact changed.trans (State.Act.proceed (s.admitChange (heldChange c e.handset m)) r o e c t k target m newCell
    { slot := c.slot, handset := e.handset, target := target, newCell := newCell, switchMark := m } record side entry inCall
    rfl).acts

theorem State.acts_takeTake (s : State) (n : Notice) (seek : BitVec 8) (newCell : Cell) :
    s.Acts (s.takeTake n seek newCell) := by
  unfold State.takeTake
  split
  · rename_i r o found
    have record := (State.outFor?_some found).1
    split
    · rename_i phase
      have side : o.phase.newCell? = none := by rw [phase]; rfl
      split
      · unfold State.actOnTake
        split
        · rename_i e entry
          split
          · rename_i inCall
            split
            · rename_i go
              simp only [Bool.and_eq_true, Option.isNone_iff_eq_none] at go
              exact s.acts_proceed _ _ _ _ _ _ _ _ _ record side entry inCall go.2
            · exact State.acts_failAttempt record
                (State.acts_dropOut record (OutPhase.notSwitching_of_newCell? side)) _ _
          all_goals exact State.Acts.refl s
        · exact State.Acts.refl s
      · exact State.Acts.refl s
    all_goals exact State.Acts.refl s
  · exact State.Acts.refl s

theorem State.acts_startFallback (s : State) (r : Nat) : s.Acts (s.startFallback r) := by
  unfold State.startFallback
  split
  · rename_i o record
    split
    · rename_i phase
      exact (State.Act.startFallback s r o _ _ _ _ record phase).acts
    all_goals exact State.Acts.refl s
  · exact State.Acts.refl s

theorem State.acts_returnToOld (s : State) (r : Nat) (o : OutRecord) (e : Entry) (target : Nat)
    (record : s.outRecord? r = some o) (entry : s.entry? o.entry = some e) (still : o.phase.NotSwitching) :
    s.Acts (s.returnToOld r o e target) := by
  unfold State.returnToOld
  split
  · rename_i c t k leaving
    have restored := (State.Act.restore s c.slot e.handset).acts
    have record' : (s.restoreSlot c.slot e.handset).outRecord? r = some o :=
      (State.outRecord?_congr (by simp) r).trans record
    refine State.acts_failAttempt (o := o) ?_
      (restored.trans (State.Act.stay _ r o e c t k record' (by simpa using entry) leaving fun _ _ _ => still).acts) _ _
    exact record'
  all_goals exact State.Acts.refl s

theorem OutPhase.notSwitching_fallback (target : Nat) (m : Mark) (c : Cell) (n : Nat) :
    (OutPhase.fallback target m c n).NotSwitching := by
  rintro _ _ _ ⟨⟩

theorem State.acts_loseHandover (s : State) (r : Nat) (o : OutRecord) (e : Entry) (target : Nat) (reason : Reason)
    (record : s.outRecord? r = some o) (entry : s.entry? o.entry = some e) (side : o.phase.newCell? ≠ none) :
    s.Acts (s.loseHandover r o.entry e target reason) :=
  (s.acts_endHandover _ r o e record entry (Or.inr side) _ _ _ _ rfl).trans (State.acts_drainTest _)

theorem State.acts_expireFallback (s : State) (r : Nat) : s.Acts (s.expireFallback r) := by
  unfold State.expireFallback
  split
  · rename_i o record
    split
    · rename_i entry phase
      exact s.acts_loseHandover _ _ _ _ _ record entry (by rw [phase]; simp [OutPhase.newCell?])
    all_goals exact State.Acts.refl s
  · exact State.Acts.refl s

/-- R144: a SWITCHING record is released with its MOVE. -/
theorem State.acts_stayOnOld (s : State) (r : Nat) (o : OutRecord) (e : Entry) (reason : Reason) (target : Nat)
    (record : s.outRecord? r = some o) (entry : s.entry? o.entry = some e) :
    s.Acts ((s.stayOnOld o.entry e).failAttempt r reason target) := by
  have released : e.isLeaving = false → s.Acts (s.failAttempt r reason target) := fun notLeaving =>
    State.acts_failAttempt record (State.Act.dropOut s r fun p hp => Or.inr (by
      obtain rfl := Option.some.inj (record.symm.trans hp)
      rintro x hx
      obtain rfl := Option.some.inj (entry.symm.trans hx)
      exact notLeaving)).acts reason target
  unfold State.stayOnOld
  split
  · rename_i c t k leaving
    have withdrawn := (State.Act.withdrawMove s c.slot).acts
    refine State.acts_failAttempt (o := o) ?_
      (withdrawn.trans (State.Act.stay (s.withdrawMove c.slot) r o e c t k record entry leaving ?_).acts) _ _
    · exact record
    · intro m hm slot
      simp [State.withdrawMove, slot] at hm
  all_goals
    rename_i phase
    exact released (by simp only [Entry.isLeaving, phase])

theorem State.acts_releaseOut (s : State) (r : Nat) : s.Acts (s.releaseOut r) := by
  unfold State.releaseOut
  split
  · rename_i o record
    have dropped : o.phase.newCell? = none → s.Acts (s.setOut r none) := fun side =>
      State.acts_dropOut record (OutPhase.notSwitching_of_newCell? side)
    split
    · rename_i phase
      exact State.acts_failAttempt record (dropped (by rw [phase]; rfl)) _ _
    · rename_i phase
      exact State.acts_failAttempt record (dropped (by rw [phase]; rfl)) _ _
    · rename_i entry _
      exact s.acts_stayOnOld _ _ _ _ _ record entry
    · rename_i entry phase
      exact s.acts_loseHandover _ _ _ _ _ record entry (by rw [phase]; simp [OutPhase.newCell?])
    · rename_i none
      exact (State.Act.dropOut s r fun p hp => Or.inr (by
        obtain rfl := Option.some.inj (record.symm.trans hp)
        rintro x hx
        rw [none] at hx
        cases hx)).acts
  · exact State.Acts.refl s

/-! ### The trigger (section 3.4) -/

theorem State.freeOut_some {s : State} {r : Nat} (h : s.freeOut = some r) : s.outRecord? r = none := by
  obtain ⟨-, free, -⟩ := (firstPlace_some s.he.outbound _ r).mp h
  exact Option.isNone_iff_eq_none.mp free

theorem State.freeIn_some {s : State} {r : Nat} (h : s.freeIn = some r) : s.inRecord? r = none := by
  obtain ⟨-, free, -⟩ := (firstPlace_some s.he.inbound _ r).mp h
  exact Option.isNone_iff_eq_none.mp free

theorem State.acts_disarmFor (s : State) (i : Nat) (k : FireKind) : s.Acts (s.disarmFor i k) := by
  unfold State.disarmFor
  split
  · exact s.acts_modifyEntry _ _ fun _ _ => .of_phase rfl rfl
  all_goals exact State.Acts.refl s

/-- A fire leaves its entry IN_CALL. -/
theorem State.inCall_disarmFor (s : State) (i : Nat) (k : FireKind) (e : Entry) (entry : s.entry? i = some e)
    (inCall : e.isInCall = true) : ∃ f, (s.disarmFor i k).entry? i = some f ∧ f.isInCall = true := by
  unfold State.disarmFor
  split
  · rw [State.modifyEntry_some s i e _ entry]
    exact ⟨_, State.entry?_setEntry_self _ _ _ (State.entry?_lt entry), inCall⟩
  all_goals exact ⟨e, entry, inCall⟩

theorem State.acts_fire (s : State) (i : Nat) (e : Entry) (k : FireKind) (r : Nat) (entry : s.entry? i = some e)
    (inCall : e.isInCall = true) (first : s.outOf i = none) (free : s.outRecord? r = none) : s.Acts (s.fire i e k r) := by
  obtain ⟨f, hf, inCall'⟩ := s.inCall_disarmFor i k e entry inCall
  have he : (s.disarmFor i k).he = s.he := by simp
  have acts := s.acts_disarmFor i k
  unfold State.fire
  dsimp only
  generalize s.disarmFor i k = t at hf he acts
  split
  · have rc : (t.offer (t.seekNotice e)).entry? = t.entry? := by simp
    have hu : (t.offer (t.seekNotice e)).he = t.he := by simp
    have asked := acts.trans (t.acts_offer (t.seekNotice e))
    generalize t.offer (t.seekNotice e) = u at asked rc hu
    refine (asked.trans (State.Act.fire u r i f _ (s.tb.ahead s.sc.config.offerWindow) ?_ ?_ inCall' ?_ rfl rfl).acts).trans
      (State.Act.numbers _ u.drawn u.rc.findNumber (u.he.seekNumber + 1) u.cc.allocCursor u.cc.tagSeq).acts
    · rw [State.outRecord?_congr (hu.trans he), free]
    · rw [rc, hf]
    · simpa only [State.outOf, hu, he] using first
  · exact acts.trans (t.acts_failEntry _ _ _)

end Sys2Proof.Machine
end

section
/-! The receiving side of a handover, the radio and the bus as chains of acts (chapters 2, 4, 7 and 9). -/
namespace Sys2Proof.Machine

/-! ### Offers and listens (chapters 4 and 9) -/

theorem State.acts_decideOffer (s : State) (h : Handset) (q : Nat) (k : BitVec 8) (p : Stamp) :
    s.Acts (s.decideOffer h q k p) := by
  unfold State.decideOffer
  split
  · split
    · exact s.acts_offer _
    · exact State.Acts.refl s
  · exact State.Acts.refl s

theorem State.acts_answerListen (s : State) (r : ListenRequest) : s.Acts (s.answerListen r) := by
  unfold State.answerListen
  split
  · exact s.acts_decideOffer _ _ _ _
  · exact State.Acts.refl s

theorem State.acts_endListensFor (s : State) (h : Handset) : s.Acts (s.endListensFor h) :=
  (State.Act.measurement s (s.endListensFor h).mu (List.Sublist.refl _) List.filter_sublist).acts

theorem State.acts_hearing (s : State) (h : Handset) (l : Nat) (c : Cell) : s.Acts (s.hearing h l c) := by
  unfold State.hearing
  split
  · exact State.Acts.refl s
  · rename_i notHeld
    exact ((State.Act.hear s h l c (by simpa using notHeld)).acts.trans (State.acts_endListensFor _ _)).trans
      (State.Acts.foldl State.answerListen State.acts_answerListen _ _)

/-- R148: a SEEK is answered or turned into a listen by a station that is ACTIVE. -/
theorem State.acts_takeSeek (s : State) (n : Notice) (seek : BitVec 8) (c : Cell) : s.Acts (s.takeSeek n seek c) := by
  unfold State.takeSeek
  split
  · rename_i open_
    split
    · exact s.acts_decideOffer _ _ _ _
    · simp only [State.seekOpen, Bool.and_eq_true] at open_
      exact (State.Act.listen s _ (State.serving_of_isActive open_.1.1.1.1)).acts
  · exact State.Acts.refl s

/-! ### A reservation (chapter 9) -/

theorem State.acts_commit (s : State) (slot : Nat) (e : SlotEntry) : s.Acts (s.commit slot e) := by
  unfold State.commit
  split
  · rename_i accepted
    exact (State.Act.commit s slot e accepted).acts
  · exact State.Acts.refl s

/-- A selected cell is allocatable. -/
theorem State.selectCell_allocatable {s : State} {c : Cell} (h : s.selectCell = some c) : s.allocatable c = true := by
  obtain ⟨-, before, rest, hl, -⟩ := (quietest_spec s.interference (s.searchOrder.filter s.allocatable)).2 c h
  have mem : c ∈ s.searchOrder.filter s.allocatable := by rw [hl]; simp
  exact (List.mem_filter.mp mem).2

/-- R19: a serving station's commit of an allocatable cell is accepted where the scan window is in range. -/
theorem State.commitRefusal?_of_allocatable {s : State} {c : Cell} (serving : s.serving = true)
    (range : ConfigRecord.InRange s.sc.config) (h : s.allocatable c = true) :
    1 ≤ c.slot ∧ c.slot ≤ 15 ∧ s.commitRefusal? c.slot = none := by
  obtain ⟨low, high, -, -, free, pending, -⟩ := (s.allocatable_iff c).mp h
  have := range.scanFirstSlot
  have := range.scanLastSlot
  refine ⟨by omega, by omega, (s.commitRefusal?_none_iff _).mpr ⟨by omega, serving, free, fun d hd same => ?_⟩⟩
  rw [(s.slotPending_iff c.slot).mpr ⟨d, hd, same⟩] at pending
  cases pending

/-- The commit of a reservation reads neither the overheard list nor the table. -/
theorem State.commit_after_entry (s : State) (h : Handset) (i : Nat) (x : Option Entry) (slot : Nat) (e : SlotEntry) :
    ((s.becomesHeld h).setEntry i x).commit slot e = ((s.commit slot e).becomesHeld h).setEntry i x := by
  have same : ((s.becomesHeld h).setEntry i x).commitRefusal? slot = s.commitRefusal? slot := rfl
  unfold State.commit
  rw [same]
  cases s.commitRefusal? slot <;> rfl

/-- The plan change of a reservation does not read the inbound records. -/
theorem State.setIn_requestChange (s : State) (c : PlanChange) (r : Nat) (p : Option InRecord) :
    (s.requestChange c).setIn r p = (s.setIn r p).requestChange c := by
  have same : (s.setIn r p).changeRefusal? c = s.changeRefusal? c := rfl
  unfold State.requestChange
  rw [same]
  cases s.changeRefusal? c <;> rfl

theorem State.acts_reserve (s : State) (n : Notice) (seek : BitVec 8) (tag : Tag) (c : Cell) (i r : Nat) (o : Overheard)
    (serving : s.serving = true) (cell : s.allocatable c = true) (fresh : s.overheard? n.handset = some o)
    (index : s.freeIndex = some i) (record : s.freeIn = some r) : s.Acts (s.reserve n seek tag c o.level i r) := by
  obtain ⟨hi, free⟩ := State.freeIndex_some index
  unfold State.reserve
  rw [State.commit_after_entry, State.setIn_requestChange]
  refine ((s.acts_commit c.slot (.reserved c.carrier n.handset)).trans ?_).trans (State.Act.requestChange _ _).acts
  have serving' : (s.commit c.slot (.reserved c.carrier n.handset)).serving = true :=
    (State.serving_congr (by simp)).trans serving
  refine (State.Act.reserve _ r i (arrivingEntry n tag c o.level) c tag _ o serving' ?_ hi ?_ rfl ?_ rfl ?_).acts
  · exact (State.entry?_congr (s := s) (by simp) i).trans free
  · simpa [State.overheard?, arrivingEntry] using fresh
  · simpa [State.inRecord?] using State.freeIn_some record
  · intro range
    obtain ⟨low, high, accepted⟩ := State.commitRefusal?_of_allocatable serving (by simpa using range) cell
    refine ⟨low, high, ?_⟩
    rw [State.commit_accepted accepted, State.slotEntry_writeSlot_self _ _ _ (by omega)]
    rfl

theorem State.isActive_of_transferRefusal? {s : State} {n : Notice} (h : s.transferRefusal? n = none) : s.isActive = true := by
  unfold State.transferRefusal? at h
  split at h
  · cases h
  · rename_i active
    simpa using active

theorem State.acts_takeTransfer (s : State) (n : Notice) (seek : BitVec 8) (tag : Tag) : s.Acts (s.takeTransfer n seek tag) := by
  unfold State.takeTransfer
  split
  · exact s.acts_offer _
  · rename_i passed
    have serving := State.serving_of_isActive (State.isActive_of_transferRefusal? passed)
    split
    · rename_i o i r fresh index record
      unfold State.acceptTransfer
      split
      · exact s.acts_offer _
      · rename_i c selected
        split
        · refine ((s.acts_moveCursor c).trans (State.acts_offer _ (s.takeNotice n seek c))).trans ?_
          have sc : ((s.moveCursor c).offer (s.takeNotice n seek c)).sc = s.sc := by simp
          have sp : ((s.moveCursor c).offer (s.takeNotice n seek c)).sp = s.sp := by simp
          have mu : ((s.moveCursor c).offer (s.takeNotice n seek c)).mu = s.mu := by simp
          have rc : ((s.moveCursor c).offer (s.takeNotice n seek c)).rc = s.rc := by simp
          have he : ((s.moveCursor c).offer (s.takeNotice n seek c)).he = s.he := by simp
          generalize (s.moveCursor c).offer (s.takeNotice n seek c) = u at sc sp mu rc he ⊢
          refine u.acts_reserve n seek tag c i r o ((State.serving_congr sc).trans serving) ?_ ?_ ?_ ?_
          · have same : u.allocatable c = s.allocatable c := by
              unfold State.allocatable State.slotEntry State.slotPending State.interference
              rw [sc, sp, mu]
            exact same.trans (State.selectCell_allocatable selected)
          · simpa only [State.overheard?, mu] using fresh
          · rw [State.freeIndex_congr rc, index]
          · simpa only [State.freeIn, he] using record
        · exact s.acts_moveCursor c
    all_goals exact State.Acts.refl s

/-! ### The inbound record (chapter 9) -/

theorem State.acts_startAwaiting (s : State) (r : Nat) : s.Acts (s.startAwaiting r) := by
  unfold State.startAwaiting
  split
  · rename_i o record
    split
    · exact (State.Act.rewriteIn s r o { o with phase := .awaiting s.sc.config.arrivalWindow } record rfl).acts
    · exact State.Acts.refl s
  · exact State.Acts.refl s

/-- An offered notice does not read the inbound records. -/
theorem State.offer_setIn (s : State) (n : Notice) (r : Nat) (p : Option InRecord) :
    (s.setIn r p).offer n = (s.offer n).setIn r p := by
  have same : (s.setIn r p).admission n = s.admission n := rfl
  unfold State.offer
  rw [same]
  (repeat' split) <;> rfl

theorem State.modifyEntry_setIn (s : State) (i : Nat) (f : Entry → Entry) (r : Nat) (p : Option InRecord) :
    (s.setIn r p).modifyEntry i f = (s.modifyEntry i f).setIn r p := by
  have same : (s.setIn r p).entry? i = s.entry? i := by simp
  unfold State.modifyEntry
  rw [same]
  split <;> rfl

theorem State.offerClaim_setIn (s : State) (i r : Nat) (p : Option InRecord) :
    (s.setIn r p).offerClaim i = (s.offerClaim i).setIn r p := by
  have same : (s.setIn r p).entry? i = s.entry? i := by simp
  unfold State.offerClaim
  rw [same]
  split
  · rename_i e _
    have claim : (s.setIn r p).claimOf e = s.claimOf e := rfl
    rw [claim, State.offer_setIn, State.modifyEntry_setIn]
    rfl
  · rfl

theorem State.acts_arrive (s : State) (r i : Nat) (o : InRecord) (e : Entry) (c : Cell) (t : Tag)
    (record : s.inRecord? r = some o) (owner : o.entry = i) (entry : s.entry? i = some e)
    (arriving : e.phase = .arriving c t) : s.Acts (s.arrive r i o e c t) := by
  subst owner
  have eq : s.arrive r o.entry o e c t
      = (((((s.setEntry o.entry (some { e with phase := .inCall c t Link.fresh, armed := true, holdoff := 0 })).setIn r
          none).offerClaim o.entry).post .handedIn e.handset o.source t .none).count .handoversIn) := by
    rw [State.offerClaim_setIn]
    rfl
  rw [eq]
  refine State.Acts.trans (State.Act.arrive s r o e _ record entry ?_ ?_ ?_ ?_).acts
    (((State.acts_offerClaim _ _).trans (State.acts_post _ _ _ _ _ _)).trans (State.acts_count _ _))
  · simp only [Entry.isArriving, arriving]
  · rfl
  · simp only [Entry.cell?, arriving]
  · rfl

theorem State.acts_missArrival (s : State) (r : Nat) (reason : Reason) : s.Acts (s.missArrival r reason) := by
  unfold State.missArrival
  split
  · rename_i o record
    split
    · rename_i e entry
      rw [State.freeEntry_some _ o.entry e (by simpa using entry)]
      refine State.Acts.trans (State.Act.missArrival s r o e record entry).acts ?_
      exact (((State.acts_removePage _ e.handset).trans (State.acts_post _ .arrivalMissed o.handset o.source e.tag
        reason)).trans (State.acts_count _ .arrivalsMissed)).trans (State.acts_drainTest _)
    · exact (State.Act.dropIn s r).acts
  · exact State.Acts.refl s

theorem State.acts_expireArrival (s : State) (r : Nat) : s.Acts (s.expireArrival r) := by
  unfold State.expireArrival
  split
  · split
    · exact s.acts_missArrival _ _
    · exact State.Acts.refl s
  · exact State.Acts.refl s

/-! ### Burst reports (chapter 2) -/

theorem State.acts_markReported (s : State) (slot : Nat) : s.Acts (s.markReported slot) :=
  (State.Act.planner s s.sp.beaconQ s.sp.cursor _ s.sp.sent id fun _ h => h).acts

theorem State.acts_routeListen (s : State) (b : Burst) : s.Acts (s.routeListen b) := by
  have fed : ∀ c l, s.Acts (s.feedMap c l) := fun c l =>
    (State.Act.measurement s (s.feedMap c l).mu (List.Sublist.refl _) (List.Sublist.refl _)).acts
  unfold State.routeListen State.takeListen
  split
  · dsimp only
    split
    · exact (fed _ _).trans (State.acts_hearing _ _ _ _)
    · exact fed _ _
  · exact State.Acts.refl s

theorem State.acts_takeUplink (s : State) (b : Burst) (h : Handset) (u : Uplink) (serving : s.serving = true) :
    s.Acts (s.takeUplink b h u) := by
  have heard : (s.hearUplink h b.level).serving = true := (State.serving_congr (by simp)).trans serving
  cases u with
  | attach epoch target =>
    unfold State.takeUplink
    dsimp only
    split
    · exact s.acts_takeAttach _ _ _ serving
    · exact s.acts_hearing _ _ _
  | presence => exact s.acts_takePresence _ _ serving
  | call => exact (s.acts_hearUplink _ _).trans (State.acts_takeCall _ _ heard)
  | pageReply tag => exact (s.acts_hearUplink _ _).trans (State.acts_takePageReply _ _ _ heard)

theorem State.acts_routeUplink (s : State) (b : Burst) : s.Acts (s.routeUplink b) := by
  unfold State.routeUplink
  split
  · rename_i serving
    split
    · exact s.acts_takeUplink _ _ _ serving
    all_goals exact State.Acts.refl s
  · exact State.Acts.refl s

theorem Entry.alike_measure (e : Entry) (w : Nat) (r : LinkReport) : e.Alike (e.measure w r) := by
  unfold Entry.measure Entry.enterOutcome
  cases hp : e.phase <;> refine ⟨?_, ?_, ?_, ?_, ?_, ?_, ?_⟩ <;>
    simp only [Entry.cell?, Entry.isIdle, Entry.isSetup, Entry.isInCall, Entry.isLeaving, Entry.isArriving, hp]

theorem State.acts_measure (s : State) (i : Nat) (r : LinkReport) : s.Acts (s.measure i r) :=
  s.acts_modifyEntry i _ fun e _ => e.alike_measure _ _

theorem State.acts_trigger (s : State) (i : Nat) (inCall : ∀ e, s.entry? i = some e → e.isInCall = true) :
    s.Acts (s.trigger i) := by
  unfold State.trigger
  split
  · rename_i e entry
    split
    · rename_i k r first kind free
      exact s.acts_fire i e k r entry (inCall e entry) first (State.freeOut_some free)
    all_goals exact State.Acts.refl s
  · exact State.Acts.refl s

theorem Entry.alike_rearmed (c : ConfigRecord) (e : Entry) : e.Alike (rearmed c e) := by
  unfold rearmed
  split
  · exact .of_phase rfl rfl
  · exact .refl e

theorem State.acts_testTrigger (s : State) (i : Nat) (e : Entry) (entry : s.entry? i = some e)
    (inCall : e.isInCall = true) : s.Acts (s.testTrigger i) := by
  have alike := e.alike_rearmed s.sc.config
  refine (s.acts_modifyEntry i _ fun e _ => e.alike_rearmed _).trans (State.acts_trigger _ i ?_)
  intro f hf
  rw [State.modifyEntry_some s i e _ entry, State.entry?_setEntry_self _ _ _ (State.entry?_lt entry)] at hf
  exact Option.some.inj hf ▸ alike.isInCall.trans inCall

theorem State.acts_tryArrival (s : State) (i : Nat) (e : Entry) (c : Cell) (t : Tag) (entry : s.entry? i = some e)
    (arriving : e.phase = .arriving c t) : s.Acts (s.tryArrival i e c t) := by
  unfold State.tryArrival
  split
  · rename_i r found
    obtain ⟨p, hp, owner⟩ := State.inOf_some found
    split
    · rename_i o record
      obtain rfl := Option.some.inj (record.symm.trans hp)
      split
      · exact s.acts_arrive _ _ _ _ _ _ record owner entry arriving
      · exact State.Acts.refl s
    · exact State.Acts.refl s
  · exact State.Acts.refl s

theorem State.acts_handoverTakesReport (s : State) (i : Nat) (r : LinkReport) : s.Acts (s.handoverTakesReport i r) := by
  unfold State.handoverTakesReport
  split
  · rename_i e entry
    split
    · rename_i phase
      exact s.acts_testTrigger i e entry (by simp only [Entry.isInCall, phase])
    · rename_i phase
      split
      · exact s.acts_tryArrival _ _ _ _ entry phase
      · exact State.Acts.refl s
    all_goals exact State.Acts.refl s
  · exact State.Acts.refl s

theorem State.acts_bearerFor (s : State) (b : Burst) (h : Handset) : s.Acts (s.bearerFor b h) := by
  unfold State.bearerFor
  split
  · split
    · exact ((s.acts_measure _ _).trans (State.acts_callTakesReport _ _ _)).trans (State.acts_handoverTakesReport _ _ _)
    · exact State.Acts.refl s
  · exact State.Acts.refl s

theorem State.acts_heldTakesReport (s : State) (i : Nat) (k : LinkReport) : s.Acts (s.heldTakesReport i k) := by
  unfold State.heldTakesReport
  split
  · rename_i e r entry found
    obtain ⟨p, hp, rfl⟩ := State.outOf_some found
    split
    · rename_i o record
      obtain rfl := Option.some.inj (record.symm.trans hp)
      split
      · rename_i phase
        split
        · unfold State.goodHeld
          split
          · exact s.acts_clearTheCall _ _ _ entry
          · exact s.acts_returnToOld _ _ _ _ record entry (phase ▸ OutPhase.notSwitching_fallback _ _ _ _)
        · exact State.Acts.refl s
      all_goals exact State.Acts.refl s
    · exact State.Acts.refl s
  all_goals exact State.Acts.refl s

theorem State.acts_heldFor (s : State) (b : Burst) (h : Handset) : s.Acts (s.heldFor b h) := by
  unfold State.heldFor
  split
  · split
    · exact (s.acts_measure _ _).trans (State.acts_heldTakesReport _ _ _)
    · exact State.Acts.refl s
  · exact State.Acts.refl s

theorem State.acts_listenBurst (s : State) (b : Burst) : s.Acts (s.listenBurst b) := by
  unfold State.listenBurst
  split
  · split
    · exact (s.acts_markReported _).trans (State.acts_routeListen _ _)
    · exact State.Acts.refl s
  all_goals exact State.Acts.refl s

theorem State.acts_beaconBurst (s : State) (k : UplinkKind) (b : Burst) : s.Acts (s.beaconBurst k b) := by
  unfold State.beaconBurst
  split
  · split
    · exact (s.acts_markReported _).trans (State.acts_routeUplink _ _)
    · exact State.Acts.refl s
  all_goals exact State.Acts.refl s

theorem State.acts_bearerBurst (s : State) (b : Burst) : s.Acts (s.bearerBurst b) := by
  unfold State.bearerBurst
  split
  · split
    · exact (s.acts_markReported _).trans (State.acts_bearerFor _ _ _)
    · exact State.Acts.refl s
  all_goals exact State.Acts.refl s

theorem State.acts_heldBurst (s : State) (b : Burst) : s.Acts (s.heldBurst b) := by
  unfold State.heldBurst
  split
  · split
    · exact (s.acts_markReported _).trans (State.acts_heldFor _ _ _)
    · exact State.Acts.refl s
  all_goals exact State.Acts.refl s

/-! ### The bus (chapter 7) -/

theorem State.acts_advanceIdle (s : State) (idle : Nat) : s.Acts (s.advanceIdle idle) := by
  unfold State.advanceIdle
  split
  · exact State.Acts.refl s
  · exact s.acts_bus _ (le_refl _) (le_refl _)

theorem State.acts_tryBegin (s : State) (through : Bool) : s.Acts (s.tryBegin through) := by
  unfold State.tryBegin
  split
  · split
    · split
      · exact s.acts_bus _ (List.length_modify _ _ _).le (le_refl _)
      · exact State.Acts.refl s
    · exact State.Acts.refl s
  · exact State.Acts.refl s

theorem afterLoss_length (q : List QueuedNotice) : (afterLoss q).length ≤ q.length := by
  unfold afterLoss
  rw [List.length_map]
  exact List.length_filter_le _ _

theorem State.acts_loseContention (s : State) : s.Acts s.loseContention := by
  have lost := (s.acts_bus { s.bus with queue := afterLoss s.bus.queue, tx := .waiting, idle := 0 }
    (afterLoss_length _) (le_refl _)).trans (State.acts_count _ .contentionLosses)
  unfold State.loseContention
  dsimp only
  split
  · exact lost.trans (State.acts_occupancyFell _)
  · exact lost

theorem State.acts_finishNotice (s : State) : s.Acts s.finishNotice := by
  have sent := s.acts_bus { s.bus with
    queue := s.bus.queue.eraseP (·.inTransmission), tx := .waiting
    yieldCount := min s.sc.config.yieldBurst (s.bus.yieldCount + 1), idle := 0 } List.length_eraseP_le (le_refl _)
  exact (sent.trans (State.acts_count _ .noticesSent)).trans (State.acts_occupancyFell _)

theorem State.acts_receive (s : State) (n : Notice) : s.Acts (s.receive n) := by
  unfold State.receive
  split
  · exact State.Acts.refl s
  · split
    · rename_i room
      have taken := (State.Act.bus s { s.bus with rx := s.bus.rx ++ [n] } id
        fun _ => by simpa using Nat.succ_le_of_lt room).acts
      exact taken.trans (State.acts_count _ _)
    · exact s.acts_count _

theorem State.acts_hearNotice (s : State) (length : Nat) (w : NoticeWord) : s.Acts (s.hearNotice length w) := by
  have another : s.Acts s.heardAnother := s.acts_bus _ (le_refl _) (le_refl _)
  unfold State.hearNotice State.hearWord
  split
  · exact State.Acts.refl s
  · split
    · exact State.Acts.refl s
    · split
      · exact s.acts_count _
      · split
        · exact s.acts_count _
        · split
          · exact s.acts_count _
          · split
            · exact another.trans (State.acts_receive _ _)
            · exact another.trans (State.acts_count _ _)

/-! ### Received notices (chapter 7) -/

/-- R124, R125: a notice is handed on, kept to supersession or passed by, and then leaves its queue. -/
theorem State.acts_dispatch (s : State) (n : Notice) (handed : State) (h : s.Acts handed) : s.Acts (s.dispatch n handed) := by
  have dropped : ∀ t : State, t.Acts t.dropReceived := fun t => t.acts_bus _ (le_refl _) (by simp)
  unfold State.dispatch State.supersedeOnly
  refine State.Acts.trans ?_ (dropped _)
  split
  · exact h
  · split
    · split
      · exact s.acts_supersede n
      · exact State.Acts.refl s
    · exact State.Acts.refl s

/-- An addressed notice is taken or passed by. -/
theorem State.acts_ite (s t u : State) (p : Prop) [Decidable p] (ht : s.Acts t) (hu : s.Acts u) :
    s.Acts (if p then t else u) := by
  split
  · exact ht
  · exact hu

theorem State.acts_handleTake (s : State) (n : Notice) (seek : BitVec 8) (c : Cell) : s.Acts (s.handleTake n seek c) :=
  s.acts_dispatch n _ (State.acts_ite _ _ _ _ (s.acts_takeTake _ _ _) (.refl s))

theorem State.acts_handleDecline (s : State) (n : Notice) (seek : BitVec 8) (r : DeclineReason) :
    s.Acts (s.handleDecline n seek r) :=
  s.acts_dispatch n _ (State.acts_ite _ _ _ _ (s.acts_takeDecline _ _ _) (.refl s))

theorem State.acts_handleOffer (s : State) (n : Notice) (seek : BitVec 8) (merit freeSlots : Nat) :
    s.Acts (s.handleOffer n seek merit freeSlots) :=
  s.acts_dispatch n _ (State.acts_ite _ _ _ _ (s.acts_takeOffer _ _ _ _) (.refl s))

theorem State.acts_handleClaim (s : State) (n : Notice) : s.Acts (s.handleClaim n) := s.acts_dispatch n _ (s.acts_takeClaim n)

theorem State.acts_handleTransfer (s : State) (n : Notice) (seek : BitVec 8) (tag : Tag) :
    s.Acts (s.handleTransfer n seek tag) :=
  s.acts_dispatch n _ (State.acts_ite _ _ _ _ (s.acts_takeTransfer _ _ _) (s.acts_supersede n))

theorem State.acts_handleSeek (s : State) (n : Notice) (seek : BitVec 8) (c : Cell) : s.Acts (s.handleSeek n seek c) :=
  s.acts_dispatch n _ ((s.acts_supersede n).trans (State.acts_takeSeek _ _ _ _))

theorem State.acts_handleHere (s : State) (n : Notice) (number : BitVec 8) (inCall : Bool) :
    s.Acts (s.handleHere n number inCall) := by
  unfold State.handleHere
  refine s.acts_dispatch n _ ?_
  split
  · exact (s.acts_supersede n).trans (State.acts_takeAnswer _ _ _ _)
  · exact s.acts_supersede n

theorem State.acts_handleFind (s : State) (n : Notice) (number : BitVec 8) : s.Acts (s.handleFind n number) :=
  s.acts_dispatch n _ (s.acts_takeFind _ _)

end Sys2Proof.Machine
end

section
/-! Strobes, sync losses and the host's commands as chains of acts, and with them every step. -/
namespace Sys2Proof.Machine

/-! ### The pieces of a strobe's work (chapter 1) -/

theorem State.acts_setQuiet (s : State) (q : Option Nat) : s.Acts (s.setQuiet q) :=
  (State.Act.station s { s.sc with quiet := q } (Or.inl rfl) s.serving_iff.mp).acts

theorem State.acts_setDrain (s : State) (d : Option Nat) : s.Acts (s.setDrain d) :=
  (State.Act.station s { s.sc with drain := d } (Or.inl rfl) s.serving_iff.mp).acts

/-- R171: once ACTIVE, the station has a beacon and posts JOINED. -/
theorem State.acts_becomeActive (s : State) : s.Acts s.becomeActive := by
  have active := (State.Act.station s { s.sc with station := .active, quiet := none } (Or.inl rfl) fun _ => Or.inl rfl).acts
  exact (active.trans (State.Act.beacon _ rfl).acts).trans (State.acts_post _ .joined 0 0 0 .none)

theorem State.acts_quietReachesZero (s : State) : s.Acts s.quietReachesZero := by
  unfold State.quietReachesZero
  split
  · exact s.acts_becomeActive
  · exact s.acts_setQuiet _

theorem Entry.alike_holdoffReachesZero (c : ConfigRecord) (e : Entry) : e.Alike (holdoffReachesZero c e) := .of_phase rfl rfl

theorem State.acts_holdoffStrobe (s : State) (i : Nat) : s.Acts (s.holdoffStrobe i) := by
  refine s.acts_modifyEntry i _ fun e _ => ?_
  unfold countHoldoff
  split
  · exact e.alike_holdoffReachesZero _
  · exact .of_phase rfl rfl

theorem State.acts_measurementStrobe (s : State) : s.Acts s.measurementStrobe := by
  have aged : ((ageOverheard s.sc.config.overheardLife s.mu.overheard).map (·.handset)).Sublist
      (s.mu.overheard.map (·.handset)) := by
    have same : (s.mu.overheard.map fun o => { o with age := o.age + 1 }).map (·.handset) = s.mu.overheard.map (·.handset) := by
      rw [List.map_map]
      rfl
    rw [← same]
    exact List.filter_sublist.map _
  exact (State.Act.measurement s s.measurementStrobe.mu aged List.filter_sublist).acts

theorem State.acts_endDueListens (s : State) : s.Acts s.endDueListens :=
  (State.Act.measurement s s.endDueListens.mu (List.Sublist.refl _) List.filter_sublist).acts

/-- The arbiter takes a message from the beacon queue or moves the page rotation on. -/
theorem State.acts_afterArbiter (s : State) : s.Acts s.afterArbiter := by
  unfold State.afterArbiter
  split
  · rename_i rest q
    exact (State.Act.planner s rest s.sp.cursor s.sp.inForce s.sp.sent
      (fun h => by rw [q] at h; exact Nat.le_of_succ_le h) (fun _ h => by rw [q] at h; cases h)).acts
  · exact (State.Act.pages s s.cc.pages (s.cc.rotation.bind (followingPage s.cc.pages)) id fun _ h => h).acts

theorem State.acts_buildPlan (s : State) : s.Acts s.buildPlan := by
  unfold State.buildPlan
  dsimp only
  refine State.Acts.trans (State.acts_ite s s.afterArbiter s (s.hasBeacon = true) s.acts_afterArbiter (.refl s)) ?_
  exact (State.Act.planner _ _ _ _ _ id fun _ h => h).acts

theorem State.acts_plannerStrobe (s : State) : s.Acts s.plannerStrobe :=
  (State.Act.dueChanges s).acts.trans (State.acts_buildPlan _)

theorem State.acts_silenceTick (s : State) (i : Nat) : s.Acts (s.silenceTick i) := by
  unfold State.silenceTick
  split
  · rename_i e entry
    split
    · rename_i n phase
      split
      · exact s.acts_expireIdle i e entry (by simp only [Entry.isIdle, phase])
      · exact (State.Act.rewrite s i e { e with phase := .idle (n + 1) } entry (.of_idle rfl phase rfl)).acts
    all_goals exact State.Acts.refl s
  · exact State.Acts.refl s

theorem State.acts_setupReachesZero (s : State) (i : Nat) (r : SetupRecord) (record : s.setup? i = some r) :
    s.Acts (s.setupReachesZero i r) := by
  unfold State.setupReachesZero
  split
  · rename_i e entry
    exact s.acts_setupFails i e r _ entry record
  · exact (State.Act.setups s _ (List.filter_sublist.map _)).acts

theorem State.acts_setupStrobe (s : State) (i : Nat) : s.Acts (s.setupStrobe i) := by
  unfold State.setupStrobe
  split
  · rename_i r record
    split
    · exact s.acts_setupReachesZero i r record
    · refine (State.Act.setups s (s.countSetup i).cc.setups ?_).acts
      have same : (s.countSetup i).cc.setups.map (·.entry) = s.cc.setups.map (·.entry) := by
        simp only [State.countSetup, List.map_map]
        refine List.map_congr_left fun x _ => ?_
        dsimp only [Function.comp]
        split <;> rfl
      rw [same]
  · exact State.Acts.refl s

theorem State.acts_pageStrobe (s : State) (h : Handset) : s.Acts (s.pageStrobe h) := by
  unfold State.pageStrobe
  split
  · split
    · exact s.acts_pageFails _ _
    · exact (State.Act.pages s (s.countPage h).cc.pages s.cc.rotation (by simp [State.countPage])
        (fun _ e => by simp [State.countPage, e])).acts
  · exact State.Acts.refl s

theorem State.acts_findStrobe (s : State) (r : Nat) : s.Acts (s.findStrobe r) := by
  unfold State.findStrobe
  split
  · rename_i f running
    split
    · exact s.acts_expireFind _ _
    · exact (State.Act.find s _ _ (Or.inr (Or.inr (by simp [running])))).acts
  · exact State.Acts.refl s

theorem State.acts_outStrobe (s : State) (r : Nat) : s.Acts (s.outStrobe r) := by
  unfold State.outStrobe
  split
  · rename_i o record
    split
    · split
      · exact s.acts_closeWindow _
      · exact State.Acts.refl s
    · rename_i l t m n phase
      split
      · exact s.acts_nextCandidate _ _
      · have side : o.phase.newCell? = none := by rw [phase]; rfl
        exact (State.Act.rewriteOut s r o { o with phase := .asking l t m (n - 1) } record rfl ⟨fun _ => side, fun _ => rfl⟩
          (OutPhase.notSwitching_of_newCell? side) fun h => by simpa [phase, OutPhase.candidates] using h).acts
    · split
      · exact s.acts_startFallback _
      · exact State.Acts.refl s
    · rename_i t m c n phase
      split
      · exact s.acts_expireFallback _
      · exact (State.Act.rewriteOut s r o { o with phase := .fallback t m c (n - 1) } record rfl
          (by simp [phase, OutPhase.newCell?]) (phase ▸ OutPhase.notSwitching_fallback _ _ _ _)
          fun _ => by simp [OutPhase.candidates]).acts
  · exact State.Acts.refl s

theorem State.acts_inStrobe (s : State) (r : Nat) : s.Acts (s.inStrobe r) := by
  unfold State.inStrobe
  split
  · rename_i o record
    split
    · split
      · exact s.acts_startAwaiting _
      · exact State.Acts.refl s
    · rename_i n _
      split
      · exact s.acts_expireArrival _
      · exact (State.Act.rewriteIn s r o { o with phase := .awaiting (n - 1) } record rfl).acts
  · exact State.Acts.refl s

theorem State.acts_quietStrobe (s : State) : s.Acts s.quietStrobe := by
  unfold State.quietStrobe
  split
  · split
    · exact State.acts_ite s _ _ _ s.acts_becomeActive (.refl s)
    · exact s.acts_quietReachesZero
    · exact s.acts_setQuiet _
    · exact State.Acts.refl s
  · exact State.Acts.refl s

theorem State.acts_drainTick (s : State) : s.Acts s.drainTick := by
  unfold State.drainTick
  split
  · split
    · exact State.Acts.refl s
    · exact s.acts_completeDrain _
    · exact s.acts_setDrain _
    · exact State.Acts.refl s
  · exact State.Acts.refl s

theorem acts_doStrobeWork (s : State) (w : StrobeWork) : s.Acts (doStrobeWork s w) := by
  cases w with
  | measurement => exact s.acts_measurementStrobe
  | slotPlanner => exact s.acts_plannerStrobe
  | silence i => exact State.acts_ite s _ _ _ (s.acts_silenceTick _) (.refl s)
  | setup i => exact s.acts_setupStrobe _
  | page h => exact s.acts_pageStrobe _
  | findRecord r => exact s.acts_findStrobe _
  | outbound r => exact s.acts_outStrobe _
  | inbound r => exact s.acts_inStrobe _
  | quietPeriod => exact s.acts_quietStrobe
  | drainLimit => exact State.acts_ite s _ _ _ s.acts_drainTick (.refl s)
  | occupancy => exact s.acts_countBy _ _

theorem State.acts_strobeReport (s : State) (order : List StrobeWork) : s.Acts (s.strobeReport order) :=
  (State.Acts.foldl (fun t (i : Fin 64) => t.holdoffStrobe i.val) (fun t i => t.acts_holdoffStrobe i.val) tableIndices s).trans
    (State.Acts.foldl doStrobeWork acts_doStrobeWork _ _)

/-! ### A sync loss (chapter 1) -/

theorem State.acts_busLoss (s : State) : s.Acts s.busLoss := by
  have lost := s.acts_bus { s.bus with queue := (s.bus.queue.filter survivesLoss).map (condemn s.bus.tx) }
    (by rw [List.length_map]; exact List.length_filter_le _ _) (le_refl _)
  unfold State.busLoss
  dsimp only
  split
  · exact lost
  · exact lost.trans (State.acts_occupancyFell _)

theorem acts_doLossWork (s : State) (w : LossWork) : s.Acts (doLossWork s w) := by
  cases w with
  | slotPlanner => exact (State.Act.dropChanges s).acts
  | measurement =>
    exact (State.Act.measurement s { s.mu with listens := [] } (List.Sublist.refl _) (List.nil_sublist _)).acts
  | outbound r => exact s.acts_releaseOut _
  | inbound r => exact s.acts_missArrival _ _
  | bus => exact s.acts_busLoss

theorem State.acts_timeBase (s : State) (b : TimeBase) : s.Acts { s with tb := b } := (State.Act.timeBase s b).acts

theorem State.acts_syncLoss (s : State) (reason : Reason) (mark : Mark) (loss : List LossWork) :
    s.Acts (s.syncLoss reason mark loss) :=
  ((State.Act.post s .syncLost 0 0 0 reason mark).acts.trans (State.acts_timeBase _ _)).trans
    (State.Acts.foldl doLossWork acts_doLossWork _ _)

theorem State.acts_regain (s : State) : s.Acts s.regain :=
  (s.acts_timeBase _).trans (State.Act.post _ _ _ _ _ _ _).acts

theorem State.acts_takeEpoch (s : State) (loss : List LossWork) : s.Acts (s.takeEpoch loss) := by
  unfold State.takeEpoch
  split
  · exact s.acts_regain
  · split
    · exact s.acts_timeBase _
    · exact (s.acts_syncLoss _ _ _).trans (State.acts_regain _)

/-! ### The host's commands (chapters 6, 10 and 11) -/

theorem State.acts_answer (s : State) (command : Byte) (code : ResponseCode) : s.Acts (s.answer command code) :=
  s.acts_respond _

/-- Nothing held, nothing committed, nothing waiting. -/
theorem State.acts_joinSegment (s : State) : s.Acts s.joinSegment :=
  (State.Act.clear s s.joinSegment
    ⟨allFree_replicate _, allFree_replicate _, rfl, rfl, allFree_replicate _, allFree_replicate _,
      State.slotEntry_cleared rfl, rfl, rfl, rfl, rfl⟩
    rfl (Or.inl rfl) s.bus.clear_length (by rw [State.joinSegment, s.bus.clear_rest.1]; exact Nat.zero_le _) (le_refl _)
    (le_refl _)).acts

theorem State.acts_restart (s : State) : s.Acts s.restart :=
  (State.Act.clear s s.restart
    ⟨allFree_replicate _, allFree_replicate _, rfl, rfl, allFree_replicate _, allFree_replicate _,
      State.slotEntry_cleared rfl, rfl, rfl, rfl, rfl⟩
    rfl (Or.inl rfl) s.bus.clear_length (by rw [State.restart, s.bus.clear_rest.1]; exact Nat.zero_le _) (Nat.zero_le _)
    (Nat.zero_le _)).acts

theorem ConfigRecord.fullReset_inRange : ConfigRecord.InRange ConfigRecord.fullReset := by
  constructor <;> decide

theorem State.acts_fullReset (s : State) : s.Acts s.fullReset :=
  (State.Act.clear s s.fullReset
    ⟨allFree_replicate _, allFree_replicate _, rfl, rfl, allFree_replicate _, allFree_replicate _,
      State.slotEntry_cleared rfl, rfl, rfl, rfl, rfl⟩
    rfl (Or.inr ConfigRecord.fullReset_inRange) (Nat.zero_le _) (Nat.zero_le _) (Nat.zero_le _) (Nat.zero_le _)).acts

/-- R167: a clamped field is in its range. -/
theorem configOfWord_inRange (w : ConfigWord) : ConfigRecord.InRange (configOfWord w) := by
  constructor
  case stationNumber => exact configByte_le w 0
  case beaconCarrier | scanFirstCarrier | scanLastCarrier | errorPenalty | triggerThreshold | hysteresis |
      handoverMargin | offerFloor | loadWeight | cleanLimit =>
    exact (clamp_range 0 _ _ (by decide)).2
  all_goals exact clamp_range _ _ _ (by decide)

theorem State.acts_stopListening (s : State) (h : s.sc.station = .listening) : s.Acts s.stopListening := by
  have stopped := (State.Act.station s { s.sc with station := .configured, quiet := none } (Or.inl rfl)
    (fun g => by simp [State.serving, h] at g)).acts
  have quiet := (State.Act.measurement { s with sc := { s.sc with station := .configured, quiet := none } }
    { s.mu with overheard := [], listens := [] } (List.nil_sublist _) (List.nil_sublist _)).acts
  exact (stopped.trans quiet).trans (State.acts_bus _ s.bus.clear s.bus.clear_length
    (by rw [s.bus.clear_rest.1]; exact Nat.zero_le _))

theorem State.acts_startDrain (s : State) : s.Acts s.startDrain :=
  (State.Act.station s { s.sc with station := .draining, drain := some s.sc.config.drainLimit } (Or.inl rfl)
    fun _ => Or.inr rfl).acts.trans (State.acts_drainTest _)

/-- R99: a page is taken by a station that is ACTIVE and has a record or room for it. -/
theorem State.pageRefusal?_none {s : State} {h : Handset} (g : s.pageRefusal? h = none) :
    s.isActive = true ∧ s.pageRoom h = true := by
  unfold State.pageRefusal? at g
  split at g
  · cases g
  · split at g
    · cases g
    · rename_i active
      split at g
      · cases g
      · split at g
        · cases g
        · split at g
          · cases g
          · rename_i room
            exact ⟨by simpa using active, by simpa using room⟩

theorem State.acts_setPage (s : State) (h : Handset) (tag : Tag) (accepted : s.pageRefusal? h = none) :
    s.Acts (s.setPage h tag) := by
  obtain ⟨active, room⟩ := State.pageRefusal?_none accepted
  have serving := State.serving_of_isActive active
  unfold State.setPage
  split
  · exact (State.Act.pages s (s.refreshPage h tag).cc.pages s.cc.rotation (by simp [State.refreshPage])
      (fun g => by simp [serving] at g)).acts
  · rename_i absent
    have room' : s.cc.pages.length < 8 := by simpa [State.pageRoom, absent] using room
    exact (State.Act.pages s (s.addPage h tag).cc.pages _
      (fun _ => by simpa [State.addPage] using Nat.succ_le_of_lt room') (fun g => by simp [serving] at g)).acts

theorem State.acts_clearByHost (s : State) (i : Nat) (e : Entry) (entry : s.entry? i = some e) : s.Acts (s.clearByHost i e) := by
  unfold State.clearByHost
  split
  case h_1 | h_2 => exact (s.acts_clearTheCall _ _ _ entry).trans (State.acts_answer _ _ _)
  all_goals exact s.acts_answer _ _

theorem State.acts_startFind (s : State) (h : Handset) (r : Nat) (serving : s.serving = true) : s.Acts (s.startFind h r) := by
  have offered := s.acts_offer (s.findNotice h)
  have sc : (s.offer (s.findNotice h)).serving = true := (State.serving_congr (by simp)).trans serving
  unfold State.startFind
  dsimp only
  generalize s.offer (s.findNotice h) = t at offered sc
  exact (offered.trans (State.Act.find t r _ (Or.inl sc)).acts).trans
    (State.Act.numbers _ (t.drawn + 1) (t.rc.findNumber + 1) t.he.seekNumber t.cc.allocCursor t.cc.tagSeq).acts

theorem State.acts_beginFind (s : State) (h : Handset) (serving : s.serving = true) : s.Acts (s.beginFind h) := by
  unfold State.beginFind
  split
  · exact s.acts_answer _ _
  · split
    · exact (s.acts_startFind _ _ serving).trans (State.acts_answer _ _ _)
    · exact s.acts_answer _ _

theorem HostLink.remainingEvents_length (h : HostLink) : h.remainingEvents.length ≤ h.events.length := by
  unfold HostLink.remainingEvents
  split
  · exact List.length_eraseIdx_le _ _
  · exact le_refl _

theorem State.acts_takeEvent (s : State) : s.Acts s.takeEvent :=
  (State.Act.hostLink s s.takeEvent.hl s.hl.remainingEvents_length (Nat.zero_le _)).acts

/-! ### Every command -/

variable {s t : State}

theorem acts_execConfigure {record : ConfigWord} : execConfigure record s = .next t → s.Acts t := by
  intro h
  obtain rfl := next_inj h
  split
  · rename_i idle
    refine State.Acts.trans (State.Act.station s { s.sc with station := .configured, config := configOfWord record }
      (Or.inr (configOfWord_inRange _)) ?_).acts (State.acts_answer _ _ _)
    intro serving
    rcases s.serving_iff.mp serving with h | h <;> simp [State.idleStation, h] at idle
  · exact s.acts_answer _ _

theorem acts_execJoin : execJoin s = .next t → s.Acts t := by
  intro h
  obtain rfl := next_inj h
  split
  · exact s.acts_respond _
  · split
    · exact s.acts_respond _
    · exact s.acts_joinSegment.trans (State.acts_answer _ _ _)
  all_goals exact s.acts_answer _ _

theorem acts_execLeave : execLeave s = .next t → s.Acts t := by
  intro h
  obtain rfl := next_inj h
  split
  · exact s.acts_startDrain.trans (State.acts_answer _ _ _)
  · rename_i listening
    exact (s.acts_stopListening listening).trans (State.acts_answer _ _ _)
  all_goals exact s.acts_answer _ _

theorem acts_execClearCall {h : Handset} : execClearCall h s = .next t → s.Acts t := by
  intro g
  obtain rfl := next_inj g
  split
  · exact s.acts_answer _ _
  · split
    · exact s.acts_answer _ _
    · split
      · exact s.acts_answer _ _
      · rename_i f
        exact s.acts_clearByHost _ _ (State.find?_some f).2.1

theorem acts_execLocate {h : Handset} : execLocate h s = .next t → s.Acts t := by
  intro g
  obtain rfl := next_inj g
  split
  · exact s.acts_answer _ _
  · split
    · exact s.acts_answer _ _
    · rename_i active
      split
      · exact (s.acts_post _ _ _ _ _).trans (State.acts_answer _ _ _)
      · split
        · exact s.acts_answer _ _
        · exact s.acts_beginFind _ (State.serving_of_isActive (by simpa using active))

theorem acts_execIdleExpiry {i : Fin 64} : execIdleExpiry i s = .next t → s.Acts t := by
  intro g
  obtain rfl := next_inj g
  split
  · rename_i e entry
    split
    · rename_i phase
      split
      · exact s.acts_expireIdle _ _ entry (by simp only [Entry.isIdle, phase])
      · exact State.Acts.refl s
    all_goals exact State.Acts.refl s
  · exact State.Acts.refl s

theorem acts_execReplyByMarkDue {r : Fin 4} : execReplyByMarkDue r s = .next t → s.Acts t := by
  intro g
  obtain rfl := next_inj g
  split
  · split
    · split
      · exact s.acts_closeWindow _
      · exact State.Acts.refl s
    all_goals exact State.Acts.refl s
  · exact State.Acts.refl s

theorem acts_execTakeTimeout {r : Fin 4} : execTakeTimeout r s = .next t → s.Acts t := by
  intro g
  obtain rfl := next_inj g
  split
  · split
    · split
      · exact s.acts_nextCandidate _ _
      · exact State.Acts.refl s
    all_goals exact State.Acts.refl s
  · exact State.Acts.refl s

theorem acts_execSwitchMarkDueOutbound {r : Fin 4} : execSwitchMarkDueOutbound r s = .next t → s.Acts t := by
  intro g
  obtain rfl := next_inj g
  split
  · split
    · split
      · exact s.acts_startFallback _
      · exact State.Acts.refl s
    all_goals exact State.Acts.refl s
  · exact State.Acts.refl s

theorem acts_execFallbackExpiry {r : Fin 4} : execFallbackExpiry r s = .next t → s.Acts t := by
  intro g
  obtain rfl := next_inj g
  split
  · split
    · split
      · exact s.acts_expireFallback _
      · exact State.Acts.refl s
    all_goals exact State.Acts.refl s
  · exact State.Acts.refl s

theorem acts_execSwitchMarkDueInbound {r : Fin 4} : execSwitchMarkDueInbound r s = .next t → s.Acts t := by
  intro g
  obtain rfl := next_inj g
  split
  · split
    · split
      · exact s.acts_startAwaiting _
      · exact State.Acts.refl s
    all_goals exact State.Acts.refl s
  · exact State.Acts.refl s

theorem acts_execArrivalWindowExpiry {r : Fin 4} : execArrivalWindowExpiry r s = .next t → s.Acts t := by
  intro g
  obtain rfl := next_inj g
  split
  · split
    · split
      · exact s.acts_expireArrival _
      · exact State.Acts.refl s
    all_goals exact State.Acts.refl s
  · exact State.Acts.refl s

theorem acts_execSetupCounterExpiry {i : Fin 64} : execSetupCounterExpiry i s = .next t → s.Acts t := by
  intro g
  obtain rfl := next_inj g
  split
  · rename_i r record
    split
    · exact s.acts_setupReachesZero _ r record
    · exact State.Acts.refl s
  · exact State.Acts.refl s

theorem acts_execPageTimeout {h : Handset} : execPageTimeout h s = .next t → s.Acts t := by
  intro g
  obtain rfl := next_inj g
  split
  · split
    · exact s.acts_pageFails _ _
    · exact State.Acts.refl s
  · exact State.Acts.refl s

theorem acts_execFindExpiry {r : Fin 4} : execFindExpiry r s = .next t → s.Acts t := by
  intro g
  obtain rfl := next_inj g
  split
  · split
    · exact s.acts_expireFind _ _
    · exact State.Acts.refl s
  · exact State.Acts.refl s

theorem acts_execOverheardExpiry {h : Handset} : execOverheardExpiry h s = .next t → s.Acts t := by
  intro g
  obtain rfl := next_inj g
  have removed := (State.Act.measurement s (s.removeOverheard h).mu (List.filter_sublist.map _) (List.Sublist.refl _)).acts
  split
  · split
    · exact removed
    · exact State.Acts.refl s
  · exact State.Acts.refl s

theorem acts_execStrobeOverdue {loss : List LossWork} : execStrobeOverdue loss s = .next t → s.Acts t := by
  intro g
  obtain rfl := next_inj g
  have disarmed : s.Acts s.disarmWatch := s.acts_timeBase _
  split
  · exact State.Acts.refl s
  · split
    · exact disarmed.trans (State.acts_syncLoss _ _ _ _)
    · exact disarmed

theorem acts_execContentionLost {bit : Fin 10} : execContentionLost bit s = .next t → s.Acts t := by
  intro g
  obtain rfl := next_inj g
  split
  · split
    · exact s.acts_loseContention
    · exact State.Acts.refl s
  all_goals exact State.Acts.refl s

theorem acts_execPage {h : Handset} {tag : Tag} : execPage h tag s = .next t → s.Acts t := by
  intro g
  obtain rfl := next_inj g
  split
  · exact s.acts_answer _ _
  · rename_i accepted
    exact (s.acts_setPage h tag accepted).trans (State.acts_answer _ _ _)

theorem acts_execTakeReceived : execTakeReceived s = .next t → s.Acts t := by
  intro g
  obtain rfl := next_inj g
  split
  · split
    · exact s.acts_handleTake _ _ _
    all_goals exact State.Acts.refl s
  · exact State.Acts.refl s

theorem acts_execDeclineReceived : execDeclineReceived s = .next t → s.Acts t := by
  intro g
  obtain rfl := next_inj g
  split
  · split
    · exact s.acts_handleDecline _ _ _
    all_goals exact State.Acts.refl s
  · exact State.Acts.refl s

theorem acts_execOfferReceived : execOfferReceived s = .next t → s.Acts t := by
  intro g
  obtain rfl := next_inj g
  split
  · split
    · exact s.acts_handleOffer _ _ _ _
    all_goals exact State.Acts.refl s
  · exact State.Acts.refl s

theorem acts_execClaimReceived : execClaimReceived s = .next t → s.Acts t := by
  intro g
  obtain rfl := next_inj g
  split
  · split
    · exact s.acts_handleClaim _
    all_goals exact State.Acts.refl s
  · exact State.Acts.refl s

theorem acts_execTransferReceived : execTransferReceived s = .next t → s.Acts t := by
  intro g
  obtain rfl := next_inj g
  split
  · split
    · exact s.acts_handleTransfer _ _ _
    all_goals exact State.Acts.refl s
  · exact State.Acts.refl s

theorem acts_execSeekReceived : execSeekReceived s = .next t → s.Acts t := by
  intro g
  obtain rfl := next_inj g
  split
  · split
    · exact s.acts_handleSeek _ _ _
    all_goals exact State.Acts.refl s
  · exact State.Acts.refl s

theorem acts_execHereReceived : execHereReceived s = .next t → s.Acts t := by
  intro g
  obtain rfl := next_inj g
  split
  · split
    · exact s.acts_handleHere _ _ _
    all_goals exact State.Acts.refl s
  · exact State.Acts.refl s

theorem acts_execFindReceived : execFindReceived s = .next t → s.Acts t := by
  intro g
  obtain rfl := next_inj g
  split
  · split
    · exact s.acts_handleFind _ _
    all_goals exact State.Acts.refl s
  · exact State.Acts.refl s

theorem exec_acts (c : Instr) (h : exec c s = .next t) : s.Acts t := by
  cases c with
  | ordinaryStrobe order =>
    obtain rfl := next_inj h
    exact ((s.acts_timeBase _).trans (State.acts_timeBase _ _)).trans (State.acts_strobeReport _ _)
  | epochStrobe loss order =>
    obtain rfl := next_inj h
    exact ((s.acts_takeEpoch _).trans (State.acts_timeBase _ _)).trans (State.acts_strobeReport _ _)
  | strobeOverdue loss => exact acts_execStrobeOverdue h
  | planChangeDue => exact next_inj h ▸ (State.Act.dueChanges s).acts
  | overheardExpiry x => exact acts_execOverheardExpiry h
  | targetedListenDue => exact next_inj h ▸ s.acts_endDueListens
  | holdoffExpiry i =>
    obtain rfl := next_inj h
    refine s.acts_modifyEntry _ _ fun e _ => ?_
    split
    · exact e.alike_holdoffReachesZero _
    · exact .refl e
  | idleExpiry i => exact acts_execIdleExpiry h
  | setupCounterExpiry i => exact acts_execSetupCounterExpiry h
  | pageTimeout x => exact acts_execPageTimeout h
  | findExpiry r => exact acts_execFindExpiry h
  | replyByMarkDue r => exact acts_execReplyByMarkDue h
  | takeTimeout r => exact acts_execTakeTimeout h
  | switchMarkDueOutbound r => exact acts_execSwitchMarkDueOutbound h
  | fallbackExpiry r => exact acts_execFallbackExpiry h
  | switchMarkDueInbound r => exact acts_execSwitchMarkDueInbound h
  | arrivalWindowExpiry r => exact acts_execArrivalWindowExpiry h
  | quietPeriodExpiry => exact next_inj h ▸ State.acts_ite s _ _ _ s.acts_quietReachesZero (.refl s)
  | drainLimitExpiry => exact next_inj h ▸ State.acts_ite s _ _ _ (s.acts_completeDrain _) (.refl s)
  | listenReport record => exact next_inj h ▸ s.acts_listenBurst _
  | attach record => exact next_inj h ▸ s.acts_beaconBurst _ _
  | presence record => exact next_inj h ▸ s.acts_beaconBurst _ _
  | call record => exact next_inj h ▸ s.acts_beaconBurst _ _
  | pageReply record => exact next_inj h ▸ s.acts_beaconBurst _ _
  | bearerReport record => exact next_inj h ▸ s.acts_bearerBurst _
  | heldReport record => exact next_inj h ▸ s.acts_heldBurst _
  | noticeBegin idle through => exact next_inj h ▸ (s.acts_advanceIdle _).trans (State.acts_tryBegin _ _)
  | contentionLost bit => exact acts_execContentionLost h
  | noticeSent => exact next_inj h ▸ State.acts_ite s _ _ _ s.acts_finishNotice (.refl s)
  | yieldTimeExpiry idle => exact next_inj h ▸ s.acts_advanceIdle _
  | noticeHeard length word =>
    obtain rfl := next_inj h
    exact (s.acts_bus { s.bus with idle := 0 } (le_refl _) (le_refl _)).trans (State.acts_hearNotice _ _ _)
  | takeReceived => exact acts_execTakeReceived h
  | declineReceived => exact acts_execDeclineReceived h
  | offerReceived => exact acts_execOfferReceived h
  | claimReceived => exact acts_execClaimReceived h
  | transferReceived => exact acts_execTransferReceived h
  | seekReceived => exact acts_execSeekReceived h
  | hereReceived => exact acts_execHereReceived h
  | findReceived => exact acts_execFindReceived h
  | configure record => exact acts_execConfigure h
  | join => exact acts_execJoin h
  | leave => exact acts_execLeave h
  | restart =>
    exact next_inj h ▸ State.acts_ite s _ _ _ (s.acts_answer _ _) (s.acts_restart.trans (State.acts_answer _ _ _))
  | page x tag => exact acts_execPage h
  | clearCall x => exact acts_execClearCall h
  | locate x => exact acts_execLocate h
  | queryHandset x => exact next_inj h ▸ State.acts_ite s _ _ _ (s.acts_answer _ _) (s.acts_respond _)
  | readEntry index => exact next_inj h ▸ State.acts_ite s _ _ _ (s.acts_answer _ _) (s.acts_respond _)
  | readStatus => exact next_inj h ▸ s.acts_respond _
  | readEvent => exact next_inj h ▸ s.acts_takeEvent.trans (State.acts_respond _ _)
  | readTallies => exact next_inj h ▸ s.acts_respond _
  | clearTallies =>
    obtain rfl := next_inj h
    exact (State.Act.hostLink s s.clearTallies.hl (le_refl _) (le_refl _)).acts.trans (State.acts_answer _ _ _)
  | undefinedCommand code =>
    simp only [exec, execUndefinedCommand] at h
    split at h
    · exact next_inj h ▸ s.acts_answer _ _
    · cases h
  | nullCommand => exact next_inj h ▸ (State.Act.hostLink s (s.shiftOut 64).hl (le_refl _) (le_refl _)).acts
  | incompleteTransaction clocked =>
    simp only [exec, execIncompleteTransaction] at h
    split at h
    · exact next_inj h ▸ (State.Act.hostLink s (s.shiftOut clocked).hl (le_refl _) (le_refl _)).acts
    · cases h
  | fullReset => exact next_inj h ▸ s.acts_fullReset

/-- A step is a chain of acts. -/
theorem step_acts (h : step s = .next t) : s.Acts t := by
  cases q : s.pending with
  | nil =>
    rw [step_idle s q] at h
    exact next_inj h ▸ State.Acts.refl s
  | cons c rest =>
    rw [step_of_pending c rest s q] at h
    exact (State.Act.waiting s rest).acts.trans (exec_acts c h)

/-- What every act keeps, every step keeps. -/
theorem step_keeps_of_acts {P : State → Prop} (acts : ∀ s t : State, State.Act s t → P s → P t) (g : P s)
    (h : step s = .next t) : P t := (step_acts h).keeps acts g

end Sys2Proof.Machine
end

section
/-! No list or queue outgrows its size: act by act, and with it every step. -/
namespace Sys2Proof.Machine

/-! ### Candidate lists -/

/-- Every candidate list is within its places. -/
def State.CandidatesFit (s : State) : Prop := ∀ r o, s.outRecord? r = some o → o.phase.candidates.length ≤ 3

theorem State.CandidatesFit.congr {s t : State} (g : s.CandidatesFit) (h : t.he.outbound = s.he.outbound) : t.CandidatesFit := by
  intro r o record
  exact g r o (by simpa only [State.outRecord?, h] using record)

/-- A record is written whose list fits, or freed. -/
theorem State.CandidatesFit.setOut {s : State} (g : s.CandidatesFit) (r : Nat) (p : Option OutRecord)
    (fits : ∀ o, p = some o → o.phase.candidates.length ≤ 3) : (s.setOut r p).CandidatesFit := by
  intro q o record
  rw [State.outRecord?_setOut] at record
  split at record
  · exact fits o record
  · exact g q o record

/-! ### The acts -/

theorem State.WithinCapacity.candidatesFit {s : State} (g : s.WithinCapacity) : s.CandidatesFit := g.candidates

/-- An act on tables, records and slots leaves the events, the bus, the Measurement Unit, the pages and the beacon queue. -/
theorem State.WithinCapacity.of_records {s t : State} (g : s.WithinCapacity) (hl : t.hl = s.hl) (bus : t.bus = s.bus)
    (mu : t.mu = s.mu) (pages : t.cc.pages = s.cc.pages) (beaconQ : t.sp.beaconQ = s.sp.beaconQ)
    (changes : t.sp.changes.length ≤ s.sp.changes.length) (candidates : t.CandidatesFit) : t.WithinCapacity where
  changes := changes.trans g.changes
  beaconQ := beaconQ ▸ g.beaconQ
  overheard := mu ▸ g.overheard
  listens := mu ▸ g.listens
  pages := pages ▸ g.pages
  queue := bus ▸ g.queue
  rx := bus ▸ g.rx
  events := hl ▸ g.events
  lost := hl ▸ g.lost
  candidates := candidates

theorem placeListen_length (r : ListenRequest) (l : List ListenRequest) (h : l.length ≤ 8)
    (room : l.any r.sameKey = true ∨ l.length < 8) : (placeListen r l).length ≤ 8 := by
  unfold placeListen
  split
  · simpa using h
  · rename_i new
    have := room.resolve_left new
    simpa using Nat.succ_le_of_lt this

theorem State.WithinCapacity.registerListen {s : State} (g : s.WithinCapacity) (r : ListenRequest) :
    (s.registerListen r).WithinCapacity := by
  unfold State.registerListen
  split
  · exact g
  · rename_i accepted
    obtain ⟨-, -, -, -, room⟩ := (s.listenRefusal?_none_iff r).mp accepted
    exact { g with listens := placeListen_length r _ g.listens room }

theorem State.WithinCapacity.requestChange {s : State} (g : s.WithinCapacity) (c : PlanChange) :
    (s.requestChange c).WithinCapacity := by
  by_cases accepted : s.changeRefusal? c = none
  · rw [State.requestChange_accepted accepted]
    obtain ⟨-, -, -, -, room⟩ := (s.changeRefusal?_none_iff c).mp accepted
    refine { g with changes := ?_ }
    show (placeChange c s.sp.changes).length ≤ 8
    rw [placeChange_length]
    split
    · exact g.changes
    · rename_i new
      exact room.resolve_left new
  · rw [State.requestChange_refused accepted]
    exact g

theorem State.freeBearer_changes_length (s : State) (e : Entry) :
    (s.freeBearer e).sp.changes.length ≤ s.sp.changes.length := by
  unfold State.freeBearer
  split
  · exact s.freeSlot_changes_length _
  · exact le_refl _

theorem State.freeBearer_beaconQ (s : State) (e : Entry) : (s.freeBearer e).sp.beaconQ = s.sp.beaconQ := by
  unfold State.freeBearer
  split <;> simp

theorem State.WithinCapacity.freeBearer {s : State} (g : s.WithinCapacity) (e : Entry) : (s.freeBearer e).WithinCapacity :=
  g.of_records (by simp) (by simp) (by simp) (by simp) (s.freeBearer_beaconQ e) (s.freeBearer_changes_length e)
    (g.candidatesFit.congr (by simp))

theorem State.WithinCapacity.setOut {s : State} (g : s.WithinCapacity) (r : Nat) (p : Option OutRecord)
    (fits : ∀ o, p = some o → o.phase.candidates.length ≤ 3) : (s.setOut r p).WithinCapacity :=
  { g with candidates := g.candidatesFit.setOut r p fits }

theorem State.WithinCapacity.dropOut {s : State} (g : s.WithinCapacity) (i : Nat) : (s.dropOut i).WithinCapacity := by
  unfold State.dropOut
  split
  · exact g.setOut _ none (by simp)
  · exact g

theorem State.WithinCapacity.dropIn {s : State} (g : s.WithinCapacity) (i : Nat) : (s.dropIn i).WithinCapacity := by
  unfold State.dropIn
  split
  · exact { g with }
  · exact g

theorem State.WithinCapacity.releaseCall {s : State} (g : s.WithinCapacity) (i : Nat) (e : Entry) :
    (s.releaseCall i e).WithinCapacity := by
  have dropped : ((s.freeBearer e).dropSetup i).WithinCapacity := { g.freeBearer e with }
  exact (dropped.dropOut i).dropIn i

theorem State.WithinCapacity.withdrawMoveOf {s : State} (g : s.WithinCapacity) (i : Nat) :
    (s.withdrawMoveOf i).WithinCapacity := by
  unfold State.withdrawMoveOf
  split
  · exact { g with }
  · exact g

/-- Each act keeps each list within its places. -/
theorem act_withinCapacity (s t : State) (h : State.Act s t) (g : s.WithinCapacity) : t.WithinCapacity := by
  have fit := g.candidatesFit
  cases h with
  | waiting q => exact { g with }
  | timeBase b => exact { g with }
  | numbers drawn find seek cursor tag => exact { g with }
  | post kind h other tag reason mark =>
    have bounds := s.hl.post_bounds { kind := kind, handset := h, other := other, tag := tag, reason := reason, mark := mark
                                      lost := 0 } g.events g.lost
    exact { g with events := bounds.1, lost := bounds.2 }
  | hostLink l events lost => exact { g with events := events.trans g.events, lost := lost.trans g.lost }
  | bus b queue rx => exact { g with queue := queue g.queue, rx := rx g.rx }
  | measurement m overheard listens =>
    have fewer : m.overheard.length ≤ s.mu.overheard.length := by simpa using overheard.length_le
    exact { g with overheard := fewer.trans g.overheard, listens := listens.length_le.trans g.listens }
  | hear h l c _ => exact { g with overheard := List.length_take_le _ _ }
  | listen r _ => exact g.registerListen r
  | station c _ _ => exact { g with }
  | clear _ empty overheard _ queue rx events lost =>
    exact {
      changes := by rw [empty.changes]; exact Nat.zero_le _
      beaconQ := by rw [empty.beaconQ]; exact Nat.zero_le _
      overheard := by rw [overheard]; exact Nat.zero_le _
      listens := by rw [empty.listens]; exact Nat.zero_le _
      pages := by rw [empty.pages]; exact Nat.zero_le _
      queue := queue.trans g.queue
      rx := rx.trans g.rx
      events := events.trans g.events
      lost := lost.trans g.lost
      candidates := fun r o record => absurd (record.symm.trans (empty.outbound r)) (by simp) }
  | planner q cursor inForce sent places _ => exact { g with beaconQ := places g.beaconQ }
  | commit slot e _ => exact { g with }
  | beacon _ => exact { g with }
  | restore slot h => exact g.of_records (by simp) (by simp) (by simp) (by simp) (by simp) (by simp) (fit.congr (by simp))
  | dueChanges =>
    refine { g with changes := (List.length_filter_le _ _).trans g.changes, beaconQ := ?_ }
    show (s.sp.applyChanges _).beaconQ.length ≤ 8
    rw [SlotPlanner.applyChanges_rest]
    exact g.beaconQ
  | requestChange c => exact g.requestChange c
  | dropChanges => exact { g with changes := Nat.zero_le _ }
  | withdrawMove slot => exact { g with }
  | find r f _ => exact { g with }
  | rewrite i e f _ _ => exact { g with }
  | freeIdle i e _ _ => exact { g with }
  | attach i f _ _ _ _ =>
    exact { g with
      overheard := (List.length_filter_le _ _).trans g.overheard, listens := (List.length_filter_le _ _).trans g.listens }
  | pages l rotation places _ => exact { g with pages := places g.pages }
  | setups l _ => exact { g with }
  | beginSetup i e c tag _ _ _ => exact { g with }
  | callUp i e f _ _ _ _ _ => exact { g with }
  | setupFails i e r _ _ => exact { g.freeBearer e with }
  | endCall i e f _ _ => exact { g.releaseCall i e with }
  | fire r i e p m _ _ _ _ _ seeking =>
    refine g.setOut r _ ?_
    rintro x ⟨⟩
    simp [seeking, OutPhase.candidates]
  | rewriteOut r o p record _ _ _ candidates =>
    refine g.setOut r _ ?_
    rintro x ⟨⟩
    exact candidates (fit r o record)
  | dropOut r _ => exact g.setOut r none (by simp)
  | proceed r o e c t k target m newCell v _ _ _ _ _ =>
    have entered : (s.setEntry o.entry (some { e with phase := .leaving c t k })).WithinCapacity := { g with }
    refine { entered.setOut r (some { o with phase := .switching target m newCell }) ?_ with }
    rintro x ⟨⟩
    exact Nat.zero_le _
  | startFallback r o target m c n _ _ =>
    refine (g.withdrawMoveOf o.entry).setOut r _ ?_
    rintro x ⟨⟩
    exact Nat.zero_le _
  | stay r o e c t k _ _ _ _ =>
    have entered : (s.setEntry o.entry (some { e with phase := .inCall c t k })).WithinCapacity := { g with }
    exact entered.setOut r none (by simp)
  | loseOut r o e _ _ _ =>
    have freed : ((s.freeBearer e).setEntry o.entry none).WithinCapacity := { g.freeBearer e with }
    exact freed.setOut r none (by simp)
  | reserve r i f c t p o _ _ _ _ _ _ _ _ =>
    exact { g with
      overheard := (List.length_filter_le _ _).trans g.overheard, listens := (List.length_filter_le _ _).trans g.listens }
  | rewriteIn r o p _ _ => exact { g with }
  | dropIn r => exact { g with }
  | arrive r o e f _ _ _ _ _ _ => exact { g with }
  | missArrival r o e _ _ => exact { g.freeBearer e with }

end Sys2Proof.Machine
end

section
/-! A station that is not serving goes on holding nothing: act by act, and with it every step. -/
namespace Sys2Proof.Machine

theorem State.EmptyOutOfService.noEntry {s : State} (g : s.EmptyOutOfService) {i : Nat} {e : Entry}
    (entry : s.entry? i = some e) : False := by
  have := entry.symm.trans (g.table i)
  cases this

theorem State.EmptyOutOfService.noOut {s : State} (g : s.EmptyOutOfService) {r : Nat} {o : OutRecord}
    (record : s.outRecord? r = some o) : False := by
  have := record.symm.trans (g.outbound r)
  cases this

theorem State.EmptyOutOfService.noIn {s : State} (g : s.EmptyOutOfService) {r : Nat} {o : InRecord}
    (record : s.inRecord? r = some o) : False := by
  have := record.symm.trans (g.inbound r)
  cases this

/-- With no plan change due, due changes change nothing. -/
theorem State.applyDueChanges_none {s : State} (h : s.sp.changes = []) : s.applyDueChanges = s := by
  have kept : { s with sp := { s.sp with changes := [] } } = s := by rw [← h]
  unfold State.applyDueChanges
  rw [h]
  exact kept

/-- A freed place leaves a free table free. -/
theorem allFree_setIfInBounds {α : Type} {n : Nat} {v : Vector (Option α) n} (h : allFree v) (i : Nat) :
    allFree (v.setIfInBounds i none) := by
  intro k
  rw [Vector.getElem?_setIfInBounds]
  split
  · split <;> rfl
  · exact h k

/-- Each act keeps a station that is not serving empty: what would hold something asks for a serving station, or for an entry
or record that is there. -/
theorem act_serviceSafe (s t : State) (h : State.Act s t) (g : s.ServiceSafe) : t.ServiceSafe := by
  intro idle
  cases h with
  | waiting q => exact { g idle with }
  | timeBase b => exact { g idle with }
  | numbers drawn find seek cursor tag => exact { g idle with }
  | post kind h other tag reason mark => exact { g idle with }
  | hostLink l _ _ => exact { g idle with }
  | bus b _ _ => exact { g idle with }
  | measurement m _ listens =>
    have e := g idle
    exact { e with listens := List.sublist_nil.mp (e.listens ▸ listens) }
  | hear h l c _ => exact { g idle with }
  | listen r serving =>
    rw [State.serving_congr (s := s) (by simp), serving] at idle
    cases idle
  | station c _ serving =>
    have : s.serving = false := by
      by_contra busy
      rw [Bool.not_eq_false] at busy
      have still : State.serving { s with sc := c } = true := by simpa [State.serving] using serving busy
      exact absurd (still.symm.trans idle) (by simp)
    exact { g this with }
  | clear _ empty _ _ _ _ _ _ => exact empty
  | planner q cursor inForce sent _ empty =>
    have e := g idle
    exact { e with beaconQ := empty idle e.beaconQ }
  | commit slot e accepted =>
    obtain ⟨-, serving, -⟩ := (s.commitRefusal?_none_iff slot).mp accepted
    exact absurd (serving.symm.trans idle) (by simp)
  | beacon serving => exact absurd (serving.symm.trans idle) (by simp)
  | restore slot h =>
    rw [State.serving_congr (s := s) (by simp)] at idle
    have e := g idle
    rw [State.restoreSlot_other (by simp [e.plan])]
    exact e
  | dueChanges =>
    have e := g idle
    rw [State.applyDueChanges_none e.changes]
    exact e
  | requestChange c =>
    rw [State.serving_congr (s := s) (by simp)] at idle
    have e := g idle
    rw [State.requestChange_refused]
    · exact e
    · intro accepted
      obtain ⟨-, -, -, ⟨x, owner, -⟩, -⟩ := (s.changeRefusal?_none_iff c).mp accepted
      simp [e.plan, SlotEntry.owner?] at owner
  | dropChanges => exact { g idle with changes := rfl }
  | withdrawMove slot =>
    have e := g idle
    exact { e with moves := by simp [State.withdrawMove, e.moves] }
  | find r f running =>
    have e := g idle
    obtain rfl : f = none := by
      rcases running with serving | free | found
      · exact absurd (serving.symm.trans idle) (by simp)
      · exact free
      · exact absurd (e.finds r) found
    exact { e with finds := allFree_setIfInBounds e.finds r }
  | rewrite i e f entry _ => exact ((g idle).noEntry entry).elim
  | freeIdle i e entry _ => exact ((g idle).noEntry entry).elim
  | attach i f _ _ _ serving => exact absurd (serving.symm.trans idle) (by simp)
  | pages l rotation _ empty =>
    have e := g idle
    exact { e with pages := empty idle e.pages }
  | setups l fewer =>
    have e := g idle
    exact { e with setups := by simpa [e.setups] using fewer }
  | beginSetup i e c tag entry _ _ => exact ((g idle).noEntry entry).elim
  | callUp i e f entry _ _ _ _ => exact ((g idle).noEntry entry).elim
  | setupFails i e r entry _ => exact ((g (by simpa [State.serving] using idle)).noEntry entry).elim
  | endCall i e f entry _ => exact ((g (by simpa [State.serving] using idle)).noEntry entry).elim
  | fire r i e p m _ entry _ _ _ _ => exact ((g idle).noEntry entry).elim
  | rewriteOut r o p record _ _ _ _ => exact ((g idle).noOut record).elim
  | dropOut r _ =>
    have e := g idle
    exact { e with outbound := allFree_setIfInBounds e.outbound r }
  | proceed r o e c t k target m newCell v record _ _ _ _ => exact ((g idle).noOut record).elim
  | startFallback r o target m c n record _ => exact ((g (by simpa [State.serving] using idle)).noOut record).elim
  | stay r o e c t k record _ _ _ => exact ((g idle).noOut record).elim
  | loseOut r o e record _ _ => exact ((g (by simpa [State.serving] using idle)).noOut record).elim
  | reserve r i f c t p o serving _ _ _ _ _ _ _ => exact absurd (serving.symm.trans idle) (by simp)
  | rewriteIn r o p record _ => exact ((g idle).noIn record).elim
  | dropIn r =>
    have e := g idle
    exact { e with inbound := allFree_setIfInBounds e.inbound r }
  | arrive r o e f record _ _ _ _ _ => exact ((g idle).noIn record).elim
  | missArrival r o e record _ => exact ((g (by simpa [State.serving] using idle)).noIn record).elim

/-- Settles O58: no act of a step gives a station out of service anything to hold. -/
theorem everyStepKeepsServiceSafe : Obligations.EveryStepKeepsServiceSafe :=
  fun _ _ => step_keeps_of_acts act_serviceSafe

end Sys2Proof.Machine
end

section
/-! No handset is held twice, overheard twice or both: act by act. -/
namespace Sys2Proof.Machine

/-- Every entry is of a handset that had one at the same index. -/
def State.HoldsNoNew (s t : State) : Prop :=
  ∀ i e, t.entry? i = some e → ∃ f, s.entry? i = some f ∧ f.handset = e.handset

theorem State.HoldsNoNew.of_eq {s t : State} (h : t.entry? = s.entry?) : s.HoldsNoNew t :=
  fun i e entry => ⟨e, by rw [← h, entry], rfl⟩

/-- The entry at one index is freed, or rewritten for its handset. -/
theorem State.HoldsNoNew.setEntry {s t : State} {i : Nat} {e : Entry} {x : Option Entry} (h : t.entry? = s.entry?)
    (entry : s.entry? i = some e) (same : ∀ f, x = some f → f.handset = e.handset) : s.HoldsNoNew (t.setEntry i x) := by
  intro j f hf
  rw [State.entry?_setEntry] at hf
  split at hf
  · rename_i at_
    exact ⟨e, at_.1 ▸ entry, (same f hf).symm⟩
  · exact ⟨f, by rw [← h, hf], rfl⟩

/-- Handsets stay apart where none is held and none overheard that was not. -/
theorem State.HandsetsApart.of_fewer {s t : State} (g : s.HandsetsApart) (held : s.HoldsNoNew t)
    (overheard : (t.mu.overheard.map (·.handset)).Sublist (s.mu.overheard.map (·.handset))) : t.HandsetsApart where
  table i j e f he hf same := by
    obtain ⟨e', he', hs⟩ := held i e he
    obtain ⟨f', hf', hs'⟩ := held j f hf
    exact g.table i j e' f' he' hf' ((hs.trans same).trans hs'.symm)
  overheard := overheard.nodup g.overheard
  apart i e o he ho := by
    obtain ⟨e', he', hs⟩ := held i e he
    obtain ⟨o', ho', hs'⟩ := List.mem_map.mp (overheard.subset (List.mem_map_of_mem ho))
    rw [← hs, ← hs']
    exact g.apart i e' o' he' ho'

/-- A handset that is heard and not held comes to the front of the overheard list. -/
theorem State.HandsetsApart.hear {s : State} (g : s.HandsetsApart) (h : Handset) (l : Nat) (c : Cell)
    (notHeld : s.isHeld h = false) : (s.recordHearing h l c).HandsetsApart := by
  have heard : (s.heardEntry h l c).handset = h := by
    unfold State.heardEntry
    split <;> rfl
  have sub : (s.recordHearing h l c).mu.overheard.Sublist
      (s.heardEntry h l c :: s.mu.overheard.filter fun o => o.handset != h) := List.take_sublist _ _
  refine ⟨g.table, ?_, ?_⟩
  · refine (sub.map _).nodup ?_
    rw [List.map_cons, List.nodup_cons, heard]
    refine ⟨?_, (List.filter_sublist.map _).nodup g.overheard⟩
    simp
  · intro i e o entry mem
    rcases List.mem_cons.mp (sub.subset mem) with rfl | old
    · rw [heard]
      rintro rfl
      rw [(s.isHeld_iff _).mpr ⟨i, e, entry, rfl⟩] at notHeld
      cases notHeld
    · exact g.apart i e o entry (List.mem_filter.mp old).1

/-- A handset that is not held becomes held: it is no longer overheard. -/
theorem State.HandsetsApart.becomesHeld {s t : State} (g : s.HandsetsApart) (f : Entry) (i : Nat)
    (notHeld : s.isHeld f.handset = false) (table : t.entry? = (s.setEntry i (some f)).entry?)
    (mu : t.mu = (s.becomesHeld f.handset).mu) : t.HandsetsApart := by
  have other : ∀ j e, t.entry? j = some e → (j = i ∧ e = f) ∨ (s.entry? j = some e ∧ e.handset ≠ f.handset) := by
    intro j e entry
    rw [table, State.entry?_setEntry] at entry
    split at entry
    · rename_i at_
      exact Or.inl ⟨at_.1, (Option.some.inj entry).symm⟩
    · refine Or.inr ⟨entry, fun same => ?_⟩
      rw [(s.isHeld_iff _).mpr ⟨j, e, entry, same⟩] at notHeld
      cases notHeld
  refine ⟨?_, ?_, ?_⟩
  · intro j k e e' he he' same
    rcases other j e he with ⟨rfl, rfl⟩ | ⟨hs, ne⟩ <;> rcases other k e' he' with ⟨rfl, rfl⟩ | ⟨hs', ne'⟩
    · rfl
    · exact absurd same.symm ne'
    · exact absurd same ne
    · exact g.table j k e e' hs hs' same
  · rw [mu]
    exact (List.filter_sublist.map _).nodup g.overheard
  · intro j e o entry mem
    rw [mu] at mem
    obtain ⟨old, ne⟩ := List.mem_filter.mp mem
    rcases other j e entry with ⟨rfl, rfl⟩ | ⟨hs, -⟩
    · simpa using ne
    · exact g.apart j e o hs old

/-- Each act keeps handsets apart. -/
theorem act_handsetsApart (s t : State) (h : State.Act s t) (g : s.HandsetsApart) : t.HandsetsApart := by
  cases h with
  | waiting q => exact { g with }
  | timeBase b => exact { g with }
  | numbers drawn find seek cursor tag => exact { g with }
  | post kind h other tag reason mark => exact { g with }
  | hostLink l _ _ => exact { g with }
  | bus b _ _ => exact { g with }
  | measurement m overheard _ => exact g.of_fewer (.of_eq rfl) overheard
  | hear h l c notHeld => exact g.hear h l c notHeld
  | listen r _ =>
    unfold State.registerListen
    split
    · exact g
    · exact { g with }
  | station c _ _ => exact { g with }
  | clear _ empty overheard _ _ _ _ _ =>
    exact ⟨fun i j e f he _ _ => (empty.noEntry he).elim, by rw [overheard]; exact List.nodup_nil,
      fun i e o he _ => (empty.noEntry he).elim⟩
  | planner q cursor inForce sent _ _ => exact { g with }
  | commit slot e _ => exact { g with }
  | beacon _ => exact { g with }
  | restore slot h => exact g.of_fewer (.of_eq (by simp)) (by simp)
  | dueChanges => exact { g with }
  | requestChange c => exact g.of_fewer (.of_eq (State.reads_congr (by simp)).1) (by simp)
  | dropChanges => exact { g with }
  | withdrawMove slot => exact { g with }
  | find r f _ => exact { g with }
  | rewrite i e f entry alike =>
    exact g.of_fewer (.setEntry rfl entry fun x hx => Option.some.inj hx ▸ alike.handset) (List.Sublist.refl _)
  | freeIdle i e entry _ => exact g.of_fewer (.setEntry rfl entry (by simp)) (List.Sublist.refl _)
  | attach i f free notHeld _ _ => exact g.becomesHeld f i notHeld (by simp) rfl
  | pages l rotation _ _ => exact { g with }
  | setups l _ => exact { g with }
  | beginSetup i e c tag entry _ _ =>
    refine g.of_fewer (t := (s.setEntry i _).addSetup i) ?_ (List.Sublist.refl _)
    exact State.HoldsNoNew.setEntry rfl entry fun x hx => Option.some.inj hx ▸ rfl
  | callUp i e f entry _ handset _ _ =>
    refine g.of_fewer (t := (s.setEntry i _).dropSetup i) ?_ (List.Sublist.refl _)
    exact State.HoldsNoNew.setEntry rfl entry fun x hx => Option.some.inj hx ▸ handset
  | setupFails i e r entry _ =>
    refine g.of_fewer (t := ((s.freeBearer e).setEntry i _).dropSetup i) ?_ (by simp)
    exact State.HoldsNoNew.setEntry (by simp) entry fun x hx => Option.some.inj hx ▸ rfl
  | endCall i e f entry idle =>
    exact g.of_fewer (.setEntry (by simp) entry fun x hx => (idle x hx).2) (by simp)
  | fire r i e p m _ _ _ _ _ _ => exact { g with }
  | rewriteOut r o p _ _ _ _ _ => exact { g with }
  | dropOut r _ => exact { g with }
  | proceed r o e c t k target m newCell v _ _ entry _ _ =>
    refine g.of_fewer (t := ((s.setEntry o.entry _).setOut r _).setMove v) ?_ (List.Sublist.refl _)
    exact State.HoldsNoNew.setEntry rfl entry fun x hx => Option.some.inj hx ▸ rfl
  | startFallback r o target m c n _ _ => exact g.of_fewer (.of_eq (by simp)) (by simp)
  | stay r o e c t k _ entry _ _ =>
    refine g.of_fewer (t := (s.setEntry o.entry _).setOut r none) ?_ (List.Sublist.refl _)
    exact State.HoldsNoNew.setEntry rfl entry fun x hx => Option.some.inj hx ▸ rfl
  | loseOut r o e _ entry _ =>
    refine g.of_fewer (t := ((s.freeBearer e).setEntry o.entry none).setOut r none) ?_ (by simp)
    exact State.HoldsNoNew.setEntry (by simp) entry (by simp)
  | reserve r i f c t p o _ _ _ fresh _ _ _ _ =>
    refine g.becomesHeld f i ?_ (funext fun j => by simp [State.entry?_setEntry]) rfl
    obtain ⟨mem, same⟩ := State.overheard?_some fresh
    rw [Bool.eq_false_iff]
    intro held
    obtain ⟨j, e, entry, hs⟩ := (s.isHeld_iff _).mp held
    exact g.apart j e o entry mem (same.trans hs.symm)
  | rewriteIn r o p _ _ => exact { g with }
  | dropIn r => exact { g with }
  | arrive r o e f _ entry _ handset _ _ =>
    refine g.of_fewer (t := (s.setEntry o.entry _).setIn r none) ?_ (List.Sublist.refl _)
    exact State.HoldsNoNew.setEntry rfl entry fun x hx => Option.some.inj hx ▸ handset
  | missArrival r o e _ entry =>
    refine g.of_fewer (t := ((s.freeBearer e).setEntry o.entry none).setIn r none) ?_ (by simp)
    exact State.HoldsNoNew.setEntry (by simp) entry (by simp)

/-- Each act keeps the configuration in its ranges. -/
theorem act_configInRange (s t : State) (h : State.Act s t) (g : ConfigRecord.InRange s.sc.config) :
    ConfigRecord.InRange t.sc.config := by
  cases h with
  | station c config _ => exact config.elim (fun same => same ▸ g) id
  | clear _ _ _ config _ _ _ _ => exact config.elim (fun same => same ▸ g) id
  | _ => simpa using g

end Sys2Proof.Machine
end

section
/-! Records, entries and slots go on agreeing: first an act that changes one entry with its records, then each act. -/
namespace Sys2Proof.Machine

/-! ### The five states of an entry exclude each other -/

theorem Entry.of_isIdle {e : Entry} (h : e.isIdle = true) :
    e.cell? = none ∧ e.isSetup = false ∧ e.isInCall = false ∧ e.isLeaving = false ∧ e.isArriving = false := by
  cases hp : e.phase <;> simp [Entry.isIdle, hp] at h
  simp only [Entry.cell?, Entry.isSetup, Entry.isInCall, Entry.isLeaving, Entry.isArriving, hp, and_self]

theorem Entry.of_isSetup {e : Entry} (h : e.isSetup = true) :
    e.isInCall = false ∧ e.isLeaving = false ∧ e.isArriving = false := by
  cases hp : e.phase <;> simp [Entry.isSetup, hp] at h
  simp only [Entry.isInCall, Entry.isLeaving, Entry.isArriving, hp, and_self]

theorem Entry.of_isInCall {e : Entry} (h : e.isInCall = true) :
    e.isSetup = false ∧ e.isLeaving = false ∧ e.isArriving = false := by
  cases hp : e.phase <;> simp [Entry.isInCall, hp] at h
  simp only [Entry.isSetup, Entry.isLeaving, Entry.isArriving, hp, and_self]

theorem Entry.of_isLeaving {e : Entry} (h : e.isLeaving = true) :
    e.isSetup = false ∧ e.isInCall = false ∧ e.isArriving = false := by
  cases hp : e.phase <;> simp [Entry.isLeaving, hp] at h
  simp only [Entry.isSetup, Entry.isInCall, Entry.isArriving, hp, and_self]

theorem Entry.of_isArriving {e : Entry} (h : e.isArriving = true) :
    e.isSetup = false ∧ e.isInCall = false ∧ e.isLeaving = false := by
  cases hp : e.phase <;> simp [Entry.isArriving, hp] at h
  simp only [Entry.isSetup, Entry.isInCall, Entry.isLeaving, hp, and_self]

/-! ### Records that an entry cannot have -/

section
variable {s : State} {i : Nat} (g : s.RecordsMatch)
include g

theorem State.RecordsMatch.noSetup (h : ∀ e, s.entry? i = some e → e.isSetup = false) :
    ∀ r ∈ s.cc.setups, r.entry ≠ i := by
  rintro r hr rfl
  obtain ⟨e, entry, setup⟩ := g.setups r hr
  rw [h e entry] at setup
  cases setup

theorem State.RecordsMatch.noOut (h : ∀ e, s.entry? i = some e → e.isInCall = false ∧ e.isLeaving = false) :
    ∀ r o, s.outRecord? r = some o → o.entry ≠ i := by
  rintro r o record rfl
  obtain ⟨e, entry, inCall, leaving⟩ := g.outbound r o record
  obtain ⟨notInCall, notLeaving⟩ := h e entry
  by_cases side : o.phase.newCell? = none
  · rw [inCall side] at notInCall
    cases notInCall
  · rw [leaving side] at notLeaving
    cases notLeaving

theorem State.RecordsMatch.noIn (h : ∀ e, s.entry? i = some e → e.isArriving = false) :
    ∀ r o, s.inRecord? r = some o → o.entry ≠ i := by
  rintro r o record rfl
  obtain ⟨e, entry, arriving⟩ := g.inbound r o record
  rw [h e entry] at arriving
  cases arriving

end

/-! ### A change of one entry and its records -/

/-- The setup records away from an entry are as before; those at it are a SETUP entry's. -/
structure State.SetupsAt (s t : State) (i : Nat) : Prop where
  records : ∀ r ∈ t.cc.setups, (r ∈ s.cc.setups ∧ r.entry ≠ i) ∨ (r.entry = i ∧ ∃ f, t.entry? i = some f ∧ f.isSetup = true)
  once : (t.cc.setups.map (·.entry)).Nodup

/-- The outbound records away from an entry are as before; at it there is one at most, of the state it is in. -/
structure State.OutAt (s t : State) (i : Nat) : Prop where
  records : ∀ r o, t.outRecord? r = some o → (s.outRecord? r = some o ∧ o.entry ≠ i)
    ∨ (o.entry = i ∧ ∃ f, t.entry? i = some f ∧ (o.phase.newCell? = none → f.isInCall = true)
      ∧ (o.phase.newCell? ≠ none → f.isLeaving = true))
  once : ∀ r q o p, t.outRecord? r = some o → t.outRecord? q = some p → o.entry = i → p.entry = i → r = q
  kept : ∀ r o, s.outRecord? r = some o → o.entry ≠ i → t.outRecord? r = some o

/-- The inbound records away from an entry are as before; at it there is one at most, and the entry is ARRIVING. -/
structure State.InAt (s t : State) (i : Nat) : Prop where
  records : ∀ r o, t.inRecord? r = some o → (s.inRecord? r = some o ∧ o.entry ≠ i)
    ∨ (o.entry = i ∧ ∃ f, t.entry? i = some f ∧ f.isArriving = true)
  once : ∀ r q o p, t.inRecord? r = some o → t.inRecord? q = some p → o.entry = i → p.entry = i → r = q

/-- A standing MOVE is that of a record away from an entry. -/
def State.MovesElsewhere (s : State) (i : Nat) (m : Move) : Prop :=
  ∀ r o e c, s.outRecord? r = some o → ¬o.phase.NotSwitching → s.entry? o.entry = some e → e.cell? = some c →
    c.slot = m.slot → o.entry ≠ i

/-- The slots of the other entries and of the pending changes have the owners they had; no MOVE is new, and none is left of a
record at the entry. -/
structure State.SlotsAt (s t : State) (i : Nat) : Prop where
  owners : ∀ j e c, j ≠ i → s.entry? j = some e → e.cell? = some c →
    (t.slotEntry c.slot).owner? = (s.slotEntry c.slot).owner?
  changes : ∀ c ∈ t.sp.changes, c ∈ s.sp.changes ∧ (t.slotEntry c.slot).owner? = (s.slotEntry c.slot).owner?
  moves : t.sp.moves.Sublist s.sp.moves
  elsewhere : ∀ m ∈ t.sp.moves, s.MovesElsewhere i m

/-- A change of one entry and its records. -/
structure State.ChangesAt (s t : State) (i : Nat) : Prop where
  others : ∀ j, j ≠ i → t.entry? j = s.entry? j
  cell : ∀ f c, t.entry? i = some f → f.cell? = some c →
    1 ≤ c.slot ∧ c.slot ≤ 15 ∧ (t.slotEntry c.slot).owner? = some f.handset
  slots : s.SlotsAt t i
  setups : s.SetupsAt t i
  outbound : s.OutAt t i
  inbound : s.InAt t i

theorem State.RecordsMatch.changeAt {s t : State} {i : Nat} (g : s.RecordsMatch) (h : s.ChangesAt t i) : t.RecordsMatch where
  slots j e c entry cell := by
    by_cases at_ : j = i
    · exact h.cell e c (at_ ▸ entry) cell
    · rw [h.others j at_] at entry
      rw [h.slots.owners j e c at_ entry cell]
      exact g.slots j e c entry cell
  changes c mem := by
    obtain ⟨old, owner⟩ := h.slots.changes c mem
    rw [owner]
    exact g.changes c old
  setups r mem := by
    rcases h.setups.records r mem with ⟨old, away⟩ | ⟨at_, f, entry, setup⟩
    · rw [h.others _ away]
      exact g.setups r old
    · exact ⟨f, at_ ▸ entry, setup⟩
  setupsOnce := h.setups.once
  outbound r o record := by
    rcases h.outbound.records r o record with ⟨old, away⟩ | ⟨at_, f, entry, side⟩
    · rw [h.others _ away]
      exact g.outbound r o old
    · exact ⟨f, at_ ▸ entry, side⟩
  outboundOnce r q o p ho hp same := by
    rcases h.outbound.records r o ho with ⟨old, away⟩ | ⟨at_, -⟩
    · rcases h.outbound.records q p hp with ⟨old', -⟩ | ⟨at', -⟩
      · exact g.outboundOnce r q o p old old' same
      · exact absurd (same.trans at') away
    · exact h.outbound.once r q o p ho hp at_ (same ▸ at_)
  inbound r o record := by
    rcases h.inbound.records r o record with ⟨old, away⟩ | ⟨at_, f, entry, arriving⟩
    · rw [h.others _ away]
      exact g.inbound r o old
    · exact ⟨f, at_ ▸ entry, arriving⟩
  inboundOnce r q o p ho hp same := by
    rcases h.inbound.records r o ho with ⟨old, away⟩ | ⟨at_, -⟩
    · rcases h.inbound.records q p hp with ⟨old', -⟩ | ⟨at', -⟩
      · exact g.inboundOnce r q o p old old' same
      · exact absurd (same.trans at') away
    · exact h.inbound.once r q o p ho hp at_ (same ▸ at_)
  moves m mem := by
    obtain ⟨r, o, e, c, target, mark, newCell, record, phase, entry, cell, slot⟩ := g.moves m (h.slots.moves.subset mem)
    have away := h.slots.elsewhere m mem r o e c record (fun still => still _ _ _ phase) entry cell slot
    exact ⟨r, o, e, c, target, mark, newCell, h.outbound.kept r o record away, phase, by rw [h.others _ away, entry], cell, slot⟩
  movesOnce := (h.slots.moves.map _).nodup g.movesOnce

/-! ### The parts of a change -/

theorem State.SetupsAt.none {s t : State} {i : Nat} (g : s.RecordsMatch) (sub : t.cc.setups.Sublist s.cc.setups)
    (away : ∀ r ∈ t.cc.setups, r.entry ≠ i) : s.SetupsAt t i :=
  ⟨fun r mem => Or.inl ⟨sub.subset mem, away r mem⟩, (sub.map _).nodup g.setupsOnce⟩

theorem State.SetupsAt.dropSetup {s t : State} {i : Nat} (g : s.RecordsMatch)
    (h : t.cc.setups = s.cc.setups.filter fun r => r.entry != i) : s.SetupsAt t i := by
  refine .none g (h ▸ List.filter_sublist) fun r mem => ?_
  rw [h, List.mem_filter] at mem
  simpa using mem.2

/-- No outbound record is left at the entry, and none is new. -/
theorem State.OutAt.none {s t : State} {i : Nat}
    (old : ∀ r o, t.outRecord? r = some o → s.outRecord? r = some o ∧ o.entry ≠ i)
    (kept : ∀ r o, s.outRecord? r = some o → o.entry ≠ i → t.outRecord? r = some o) : s.OutAt t i :=
  ⟨fun r o h => Or.inl (old r o h), fun r _ o _ ho _ at_ _ => absurd at_ (old r o ho).2, kept⟩

theorem State.OutAt.of_eq {s t : State} {i : Nat} (h : t.he.outbound = s.he.outbound)
    (away : ∀ r o, s.outRecord? r = some o → o.entry ≠ i) : s.OutAt t i := by
  have same : ∀ r, t.outRecord? r = s.outRecord? r := fun r => by simp only [State.outRecord?, h]
  exact .none (fun r o ho => by rw [same] at ho; exact ⟨ho, away r o ho⟩) (fun r o ho _ => by rw [same, ho])

/-- The one outbound record of the entry is freed. -/
theorem State.OutAt.freed {s t : State} {r : Nat} {o : OutRecord} (g : s.RecordsMatch) (record : s.outRecord? r = some o)
    (h : t.he.outbound = (s.setOut r Option.none).he.outbound) : s.OutAt t o.entry := by
  have same : ∀ q, t.outRecord? q = if q = r ∧ r < 4 then Option.none else s.outRecord? q := fun q => by
    rw [← State.outRecord?_setOut]
    simp only [State.outRecord?, h]
  refine .none (fun q p hp => ?_) (fun q p hp away => ?_)
  · rw [same] at hp
    split at hp
    · cases hp
    · rename_i other
      refine ⟨hp, fun at_ => other ?_⟩
      exact ⟨g.outboundOnce q r p o hp record at_, State.outRecord?_lt record⟩
  · rw [same, if_neg, hp]
    rintro ⟨rfl, -⟩
    exact away (by rw [Option.some.inj (hp.symm.trans record)])

/-- The one outbound record of the entry is written, or its first. -/
theorem State.OutAt.written {s t : State} {i r : Nat} {p : OutRecord} {f : Entry} (owner : p.entry = i)
    (alone : ∀ q o, s.outRecord? q = some o → o.entry = i → q = r) (here : ∀ o, s.outRecord? r = some o → o.entry = i)
    (h : t.he.outbound = (s.setOut r (some p)).he.outbound) (entry : t.entry? i = some f)
    (side : (p.phase.newCell? = Option.none → f.isInCall = true) ∧ (p.phase.newCell? ≠ Option.none → f.isLeaving = true)) :
    s.OutAt t i := by
  have same : ∀ q, t.outRecord? q = if q = r ∧ r < 4 then some p else s.outRecord? q := fun q => by
    rw [← State.outRecord?_setOut]
    simp only [State.outRecord?, h]
  have at_r : ∀ q o, t.outRecord? q = some o → o.entry = i → q = r := fun q o ho at_ => by
    rw [same] at ho
    split at ho
    · rename_i c
      exact c.1
    · exact alone q o ho at_
  refine ⟨fun q o ho => ?_, fun q q' o o' ho ho' at_ at' => (at_r q o ho at_).trans (at_r q' o' ho' at').symm,
    fun q o ho away => ?_⟩
  · by_cases at_ : o.entry = i
    · obtain rfl := at_r q o ho at_
      rw [same] at ho
      split at ho
      · obtain rfl := Option.some.inj ho
        exact Or.inr ⟨at_, f, entry, side⟩
      · rename_i big
        exact absurd ⟨rfl, State.outRecord?_lt ho⟩ big
    · rw [same] at ho
      split at ho
      · obtain rfl := Option.some.inj ho
        exact absurd owner at_
      · exact Or.inl ⟨ho, at_⟩
  · rw [same, if_neg, ho]
    rintro ⟨rfl, -⟩
    exact away (here o ho)

theorem State.InAt.none {s t : State} {i : Nat}
    (old : ∀ r o, t.inRecord? r = some o → s.inRecord? r = some o ∧ o.entry ≠ i) : s.InAt t i :=
  ⟨fun r o h => Or.inl (old r o h), fun r _ o _ ho _ at_ _ => absurd at_ (old r o ho).2⟩

theorem State.InAt.of_eq {s t : State} {i : Nat} (h : t.he.inbound = s.he.inbound)
    (away : ∀ r o, s.inRecord? r = some o → o.entry ≠ i) : s.InAt t i := by
  have same : ∀ r, t.inRecord? r = s.inRecord? r := fun r => by simp only [State.inRecord?, h]
  exact .none fun r o ho => by rw [same] at ho; exact ⟨ho, away r o ho⟩

/-- The one inbound record of the entry is freed. -/
theorem State.InAt.freed {s t : State} {r : Nat} {o : InRecord} (g : s.RecordsMatch) (record : s.inRecord? r = some o)
    (h : t.he.inbound = (s.setIn r Option.none).he.inbound) : s.InAt t o.entry := by
  have same : ∀ q, t.inRecord? q = if q = r ∧ r < 4 then Option.none else s.inRecord? q := fun q => by
    rw [← State.inRecord?_setIn]
    simp only [State.inRecord?, h]
  refine .none fun q p hp => ?_
  rw [same] at hp
  split at hp
  · cases hp
  · rename_i other
    refine ⟨hp, fun at_ => other ?_⟩
    exact ⟨g.inboundOnce q r p o hp record at_, State.inRecord?_lt record⟩

/-- The slot plan is as it was. -/
theorem State.SlotsAt.of_eq {s t : State} {i : Nat} (h : t.sp = s.sp) (elsewhere : ∀ m ∈ s.sp.moves, s.MovesElsewhere i m) :
    s.SlotsAt t i := by
  have same : ∀ slot, t.slotEntry slot = s.slotEntry slot := fun slot => by simp only [State.slotEntry, h]
  exact ⟨fun j e c _ _ _ => by rw [same], fun c mem => ⟨h ▸ mem, by rw [same]⟩, h ▸ List.Sublist.refl _,
    fun m mem => elsewhere m (h ▸ mem)⟩

/-- A SWITCHING record is a LEAVING entry's. -/
theorem State.RecordsMatch.movesElsewhere {s : State} {i : Nat} (g : s.RecordsMatch)
    (h : ∀ e, s.entry? i = some e → e.isLeaving = false) (m : Move) : s.MovesElsewhere i m := by
  rintro r o e c record switching entry - - rfl
  obtain ⟨f, entry', -, leaving⟩ := g.outbound r o record
  have := leaving fun side => switching (OutPhase.notSwitching_of_newCell? side)
  rw [h f entry'] at this
  cases this

/-- The slot of an entry is freed with its pending changes and its MOVE. No other entry has it, because its owner is one
handset. -/
theorem State.SlotsAt.freeBearer {s t : State} {i : Nat} {e : Entry} (g : s.RecordsMatch) (apart : s.HandsetsApart)
    (entry : s.entry? i = some e) (h : t.sp = (s.freeBearer e).sp) : s.SlotsAt t i := by
  have same : ∀ slot, t.slotEntry slot = (s.freeBearer e).slotEntry slot := fun slot => by simp only [State.slotEntry, h]
  cases cell : e.cell? with
  | none =>
    have kept : s.freeBearer e = s := by simp only [State.freeBearer, cell]
    refine .of_eq (h.trans (by rw [kept])) ?_
    rintro m - r o f c - - entry' cell' - rfl
    obtain rfl := Option.some.inj (entry.symm.trans entry')
    rw [cell] at cell'
    cases cell'
  | some c =>
    have freed : s.freeBearer e = s.freeSlot c.slot := by simp only [State.freeBearer, cell]
    obtain ⟨low, -, owner⟩ := g.slots i e c entry cell
    have other : ∀ slot, slot ≠ c.slot → (t.slotEntry slot).owner? = (s.slotEntry slot).owner? := fun slot ne => by
      rw [same, freed, State.slotEntry_freeSlot, if_neg (fun a => ne a.1)]
    have moves : t.sp.moves = s.sp.moves.filter fun m => m.slot != c.slot := by
      rw [h, freed, State.freeSlot_moves _ _ (by omega)]
    refine ⟨?_, ?_, ?_, ?_⟩
    · intro j f d ne entry' cell'
      refine other d.slot fun eq => ne ?_
      have owner' := (g.slots j f d entry' cell').2.2
      rw [eq, owner] at owner'
      exact apart.table j i f e entry' entry (Option.some.inj owner').symm
    · intro d mem
      rw [h, freed, State.freeSlot_changes _ _ (by omega)] at mem
      obtain ⟨old, ne⟩ := List.mem_filter.mp mem
      exact ⟨old, other d.slot (by simpa using ne)⟩
    · rw [moves]
      exact List.filter_sublist
    · rintro m mem r o f d - - entry' cell' slot rfl
      rw [moves] at mem
      obtain rfl := Option.some.inj (entry.symm.trans entry')
      obtain rfl := Option.some.inj (cell.symm.trans cell')
      have ne := (List.mem_filter.mp mem).2
      simp [slot] at ne

end Sys2Proof.Machine
end

section
/-! Records, entries and slots go on agreeing: act by act, and with it every step. -/
namespace Sys2Proof.Machine

/-! ### Writes of the slot plan -/

/-- Where each entry's slot and each pending change keep their owner, only the slot plan has changed. -/
theorem State.RecordsMatch.of_slots {s t : State} (g : s.RecordsMatch) (rc : t.rc = s.rc) (setups : t.cc.setups = s.cc.setups)
    (he : t.he = s.he) (owners : ∀ i e c, s.entry? i = some e → e.cell? = some c →
      (t.slotEntry c.slot).owner? = (s.slotEntry c.slot).owner?)
    (changes : ∀ c ∈ t.sp.changes, 1 ≤ c.slot ∧ ∃ h, (t.slotEntry c.slot).owner? = some h ∧ c.entry.owner? = some h)
    (moves : t.sp.moves.Sublist s.sp.moves) : t.RecordsMatch := by
  have entries : ∀ i, t.entry? i = s.entry? i := State.entry?_congr rc
  have outs : ∀ r, t.outRecord? r = s.outRecord? r := State.outRecord?_congr he
  have ins : ∀ r, t.inRecord? r = s.inRecord? r := fun r => by simp only [State.inRecord?, he]
  refine ⟨?_, changes, ?_, ?_, ?_, ?_, ?_, ?_, ?_, (moves.map _).nodup g.movesOnce⟩
  · intro i e c entry cell
    rw [entries] at entry
    rw [owners i e c entry cell]
    exact g.slots i e c entry cell
  · simpa only [setups, entries] using g.setups
  · simpa only [setups] using g.setupsOnce
  · simpa only [outs, entries] using g.outbound
  · simpa only [outs] using g.outboundOnce
  · simpa only [ins, entries] using g.inbound
  · simpa only [ins] using g.inboundOnce
  · intro m mem
    simpa only [outs, entries] using g.moves m (moves.subset mem)

/-- A write of a slot that no entry has and no change waits for. -/
theorem State.RecordsMatch.writeSlot {s : State} (g : s.RecordsMatch) (slot : Nat) (x : SlotEntry)
    (entries : ∀ i e c, s.entry? i = some e → e.cell? = some c → c.slot ≠ slot)
    (changes : ∀ c ∈ s.sp.changes, c.slot ≠ slot) : (s.writeSlot slot x).RecordsMatch := by
  refine g.of_slots rfl rfl rfl (fun i e c entry cell => ?_) (fun c mem => ?_) List.filter_sublist
  · rw [State.slotEntry_writeSlot_other _ _ _ _ (entries i e c entry cell)]
  · rw [State.slotEntry_writeSlot_other _ _ _ _ (changes c mem)]
    exact g.changes c mem

/-- A write that leaves the slot's owner. -/
theorem SlotPlanner.owner_write (p : SlotPlanner) (slot k : Nat) (x : SlotEntry)
    (same : x.owner? = (p.plan[slot]?.getD .free).owner?) :
    (((p.write slot x).plan[k]?).getD .free).owner? = (p.plan[k]?.getD .free).owner? := by
  rw [SlotPlanner.write_plan, Vector.getElem?_setIfInBounds]
  split
  · rename_i eq
    subst eq
    split
    · exact same
    · rename_i big
      rw [Vector.getElem?_eq_none (Nat.le_of_not_lt big)]
  · rfl

/-- R23: changes that name their slots' owners leave every owner. -/
theorem SlotPlanner.owner_applyChanges (l : List PlanChange) (p : SlotPlanner) (k : Nat)
    (same : ∀ c ∈ l, c.entry.owner? = (p.plan[c.slot]?.getD .free).owner?) :
    (((p.applyChanges l).plan[k]?).getD .free).owner? = (p.plan[k]?.getD .free).owner? := by
  induction l generalizing p with
  | nil => rfl
  | cons c l ih =>
    have here := same c List.mem_cons_self
    rw [SlotPlanner.applyChanges_cons, ih, p.owner_write _ _ _ here]
    intro d mem
    rw [p.owner_write _ _ _ here]
    exact same d (List.mem_cons_of_mem _ mem)

/-- R33: due changes take MOVEs away and add none. -/
theorem SlotPlanner.moves_applyChanges (l : List PlanChange) (p : SlotPlanner) :
    (p.applyChanges l).moves.Sublist p.moves := by
  induction l generalizing p with
  | nil => exact List.Sublist.refl _
  | cons c l ih => exact (ih _).trans List.filter_sublist

theorem State.RecordsMatch.applyDueChanges {s : State} (g : s.RecordsMatch) : s.applyDueChanges.RecordsMatch := by
  have same : ∀ k, (s.applyDueChanges.slotEntry k).owner? = (s.slotEntry k).owner? := fun k =>
    SlotPlanner.owner_applyChanges _ _ _ fun c mem => by
      obtain ⟨-, h, owner, owner'⟩ := g.changes c (List.mem_filter.mp mem).1
      exact owner'.trans owner.symm
  refine g.of_slots rfl ?_ rfl (fun _ _ c _ _ => same c.slot) (fun c mem => ?_) (SlotPlanner.moves_applyChanges _ _)
  · rfl
  · rw [same]
    exact g.changes c (List.mem_filter.mp mem).1

theorem mem_placeChange {c d : PlanChange} {l : List PlanChange} (h : d ∈ placeChange c l) : d = c ∨ d ∈ l := by
  unfold placeChange at h
  split at h
  · obtain ⟨x, mem, rfl⟩ := List.mem_map.mp h
    split
    · exact Or.inl rfl
    · exact Or.inr mem
  · simpa [or_comm] using h

theorem State.RecordsMatch.requestChange {s : State} (g : s.RecordsMatch) (c : PlanChange) :
    (s.requestChange c).RecordsMatch := by
  by_cases accepted : s.changeRefusal? c = none
  · rw [State.requestChange_accepted accepted]
    obtain ⟨range, -, -, owner, -⟩ := (s.changeRefusal?_none_iff c).mp accepted
    refine { g with changes := fun d mem => ?_ }
    rcases mem_placeChange mem with rfl | old
    · exact ⟨range.1, owner⟩
    · exact g.changes d old
  · rw [State.requestChange_refused accepted]
    exact g

theorem State.RecordsMatch.restoreSlot {s : State} (g : s.RecordsMatch) (slot : Nat) (h : Handset) :
    (s.restoreSlot slot h).RecordsMatch := by
  by_cases held : ∃ c, s.slotEntry slot = .held c h
  · obtain ⟨c, held⟩ := held
    rw [State.restoreSlot_held held]
    have same : ∀ k, ((s.writeSlot slot (.bearer c h)).slotEntry k).owner? = (s.slotEntry k).owner? := fun k =>
      s.sp.owner_write slot k _ (by
        show _ = (s.slotEntry slot).owner?
        rw [held]
        rfl)
    refine g.of_slots rfl rfl rfl (fun _ _ c _ _ => same c.slot) (fun d mem => ?_) List.filter_sublist
    rw [same]
    exact g.changes d mem
  · rw [State.restoreSlot_other (by simpa using held)]
    exact g

/-- A standing MOVE for the slot that a SWITCHING record's entry leaves. -/
theorem State.RecordsMatch.setMove {s : State} (g : s.RecordsMatch) (v : Move) (r : Nat) (o : OutRecord) (e : Entry) (c : Cell)
    (target : Nat) (mark : Mark) (newCell : Cell) (record : s.outRecord? r = some o)
    (switching : o.phase = .switching target mark newCell) (entry : s.entry? o.entry = some e) (cell : e.cell? = some c)
    (slot : c.slot = v.slot) : (s.setMove v).RecordsMatch := by
  refine { g with moves := fun m mem => ?_, movesOnce := ?_ }
  · rcases List.mem_append.mp mem with old | new
    · exact g.moves m (List.mem_filter.mp old).1
    · obtain rfl := List.mem_singleton.mp new
      exact ⟨r, o, e, c, target, mark, newCell, record, switching, entry, cell, slot⟩
  · show ((s.sp.moves.filter (fun x => x.slot != v.slot) ++ [v]).map (·.slot)).Nodup
    rw [List.map_append, List.nodup_append]
    refine ⟨(List.filter_sublist.map _).nodup g.movesOnce, by simp, ?_⟩
    intro a ha b hb
    obtain ⟨m, mem, rfl⟩ := List.mem_map.mp ha
    obtain rfl := List.mem_singleton.mp hb
    simpa using (List.mem_filter.mp mem).2

/-! ### Records of the same entries -/

/-- Setup records of entries that had one, each once. -/
theorem State.RecordsMatch.of_setups {s t : State} (g : s.RecordsMatch) (rest : t = { s with cc := t.cc })
    (fewer : (t.cc.setups.map (·.entry)).Sublist (s.cc.setups.map (·.entry))) : t.RecordsMatch := by
  rw [rest]
  refine { g with setups := fun r mem => ?_, setupsOnce := fewer.nodup g.setupsOnce }
  obtain ⟨x, old, same⟩ := List.mem_map.mp (fewer.subset (List.mem_map_of_mem mem))
  exact same ▸ g.setups x old

/-- Inbound records of entries that had one at the same place. -/
theorem State.RecordsMatch.setIn {s : State} (g : s.RecordsMatch) (r : Nat) (p : Option InRecord)
    (same : ∀ x, p = some x → ∃ o, s.inRecord? r = some o ∧ o.entry = x.entry) : (s.setIn r p).RecordsMatch := by
  have old : ∀ q x, (s.setIn r p).inRecord? q = some x → ∃ o, s.inRecord? q = some o ∧ o.entry = x.entry := by
    intro q x hx
    rw [State.inRecord?_setIn] at hx
    split at hx
    · rename_i at_
      exact at_.1 ▸ same x hx
    · exact ⟨x, hx, rfl⟩
  refine { g with inbound := fun q x hx => ?_, inboundOnce := fun q q' x x' hx hx' eq => ?_ }
  · obtain ⟨o, record, owner⟩ := old q x hx
    exact owner ▸ g.inbound q o record
  · obtain ⟨o, record, owner⟩ := old q x hx
    obtain ⟨o', record', owner'⟩ := old q' x' hx'
    exact g.inboundOnce q q' o o' record record' ((owner.trans eq).trans owner'.symm)

/-- An entry alike in place of another. -/
theorem State.RecordsMatch.rewrite {s : State} (g : s.RecordsMatch) {i : Nat} {e f : Entry} (entry : s.entry? i = some e)
    (alike : e.Alike f) : (s.setEntry i (some f)).RecordsMatch := by
  have new : ∀ j x, (s.setEntry i (some f)).entry? j = some x → ∃ y, s.entry? j = some y ∧ y.Alike x := by
    intro j x hx
    rw [State.entry?_setEntry] at hx
    split at hx
    · rename_i at_
      exact ⟨e, at_.1 ▸ entry, Option.some.inj hx ▸ alike⟩
    · exact ⟨x, hx, .refl x⟩
  have old : ∀ j y, s.entry? j = some y → ∃ x, (s.setEntry i (some f)).entry? j = some x ∧ y.Alike x := by
    intro j y hy
    by_cases at_ : j = i
    · subst at_
      obtain rfl := Option.some.inj (entry.symm.trans hy)
      exact ⟨f, State.entry?_setEntry_self _ _ _ (State.entry?_lt entry), alike⟩
    · exact ⟨y, by rw [State.entry?_setEntry_other _ _ _ _ at_, hy], .refl y⟩
  refine { g with slots := ?_, setups := ?_, outbound := ?_, inbound := ?_, moves := ?_ }
  · intro j x c hx cell
    obtain ⟨y, hy, like⟩ := new j x hx
    rw [like.handset]
    exact g.slots j y c hy (like.cell ▸ cell)
  · intro r mem
    obtain ⟨y, hy, setup⟩ := g.setups r mem
    obtain ⟨x, hx, like⟩ := old _ y hy
    exact ⟨x, hx, like.isSetup.trans setup⟩
  · intro r o record
    obtain ⟨y, hy, inCall, leaving⟩ := g.outbound r o record
    obtain ⟨x, hx, like⟩ := old _ y hy
    exact ⟨x, hx, fun side => like.isInCall.trans (inCall side), fun side => like.isLeaving.trans (leaving side)⟩
  · intro r o record
    obtain ⟨y, hy, arriving⟩ := g.inbound r o record
    obtain ⟨x, hx, like⟩ := old _ y hy
    exact ⟨x, hx, like.isArriving.trans arriving⟩
  · intro m mem
    obtain ⟨r, o, y, c, target, mark, newCell, record, phase, hy, cell, slot⟩ := g.moves m mem
    obtain ⟨x, hx, like⟩ := old _ y hy
    exact ⟨r, o, x, c, target, mark, newCell, record, phase, hx, like.cell.trans cell, slot⟩

/-! ### A call that ends -/

/-- Freeing an entry's records leaves the slot plan and the setup records. -/
theorem State.dropOut_dropIn_rest (s : State) (i : Nat) :
    ((s.dropOut i).dropIn i).sp = s.sp ∧ ((s.dropOut i).dropIn i).cc = s.cc := by
  have out : (s.dropOut i).sp = s.sp ∧ (s.dropOut i).cc = s.cc := by unfold State.dropOut; split <;> exact ⟨rfl, rfl⟩
  rw [← out.1, ← out.2]
  unfold State.dropIn
  split <;> exact ⟨rfl, rfl⟩

theorem State.releaseCall_sp (s : State) (i : Nat) (e : Entry) : (s.releaseCall i e).sp = (s.freeBearer e).sp :=
  (State.dropOut_dropIn_rest _ i).1

theorem State.releaseCall_setups (s : State) (i : Nat) (e : Entry) :
    (s.releaseCall i e).cc.setups = s.cc.setups.filter fun r => r.entry != i := by
  have cc : (s.freeBearer e).cc = s.cc := by simp
  unfold State.releaseCall
  rw [(State.dropOut_dropIn_rest _ i).2, State.dropSetup, cc]

theorem State.releaseCall_outbound (s : State) (i : Nat) (e : Entry) :
    (s.releaseCall i e).he.outbound = (s.dropOut i).he.outbound := by
  have he : ((s.freeBearer e).dropSetup i).he = s.he := by simp
  have outOf : ((s.freeBearer e).dropSetup i).outOf i = s.outOf i := by simp only [State.outOf, he]
  have kept : ∀ t : State, (t.dropIn i).he.outbound = t.he.outbound := fun t => by unfold State.dropIn; split <;> rfl
  unfold State.releaseCall
  rw [kept]
  unfold State.dropOut
  rw [outOf]
  split
  · simp only [State.setOut, he]
  · rw [he]

theorem State.releaseCall_inbound (s : State) (i : Nat) (e : Entry) :
    (s.releaseCall i e).he.inbound = (s.dropIn i).he.inbound := by
  have inbound : (((s.freeBearer e).dropSetup i).dropOut i).he.inbound = s.he.inbound := by
    have kept : ∀ t : State, (t.dropOut i).he.inbound = t.he.inbound := fun t => by unfold State.dropOut; split <;> rfl
    rw [kept]
    simp
  have inOf : (((s.freeBearer e).dropSetup i).dropOut i).inOf i = s.inOf i := by simp only [State.inOf, inbound]
  unfold State.releaseCall
  rw [State.dropIn, inOf, State.dropIn]
  split
  · simp only [State.setIn, inbound]
  · exact inbound

theorem State.OutAt.dropOut {s t : State} {i : Nat} (g : s.RecordsMatch) (h : t.he.outbound = (s.dropOut i).he.outbound) :
    s.OutAt t i := by
  cases found : s.outOf i with
  | none => exact .of_eq (by rw [h, State.dropOut, found]) (s.outOf_none_iff i |>.mp found)
  | some r =>
    obtain ⟨o, record, rfl⟩ := State.outOf_some found
    exact .freed g record (by rw [h, State.dropOut, found])

theorem State.InAt.dropIn {s t : State} {i : Nat} (g : s.RecordsMatch) (h : t.he.inbound = (s.dropIn i).he.inbound) :
    s.InAt t i := by
  cases found : s.inOf i with
  | none => exact .of_eq (by rw [h, State.dropIn, found]) (s.inOf_none_iff i |>.mp found)
  | some r =>
    obtain ⟨o, record, rfl⟩ := State.inOf_some found
    exact .freed g record (by rw [h, State.dropIn, found])

end Sys2Proof.Machine
end

section
/-! Each act keeps records, entries and slots in agreement; the three invariants of every step. -/
namespace Sys2Proof.Machine

/-! ### One entry changes -/

theorem State.entry_unique {s : State} {i : Nat} {e f : Entry} (he : s.entry? i = some e) (hf : s.entry? i = some f) :
    e = f := Option.some.inj (he.symm.trans hf)

/-- What holds of the entry holds of whatever is read at its index. -/
theorem State.atEntry {s : State} {i : Nat} {e : Entry} {P : Entry → Prop} (entry : s.entry? i = some e) (h : P e) :
    ∀ x, s.entry? i = some x → P x := fun _ hx => State.entry_unique entry hx ▸ h

theorem State.others_setEntry {s t : State} {i : Nat} {x : Option Entry} (h : t.entry? = (s.setEntry i x).entry?) :
    ∀ j, j ≠ i → t.entry? j = s.entry? j := fun j ne => by rw [h, State.entry?_setEntry_other _ _ _ _ ne]

/-- The entry written, at an index that holds one. -/
theorem State.entry_setEntry {s t : State} {i : Nat} {e : Entry} {x : Option Entry} (h : t.entry? = (s.setEntry i x).entry?)
    (entry : s.entry? i = some e) : t.entry? i = x := by
  rw [h, State.entry?_setEntry_self _ _ _ (State.entry?_lt entry)]

theorem Entry.cell?_of_isSetup {e : Entry} (h : e.isSetup = true) : ∃ c, e.cell? = some c := by
  cases hp : e.phase <;> simp [Entry.isSetup, hp] at h
  rename_i c _ _
  exact ⟨c, by simp only [Entry.cell?, hp]⟩

/-- A call ends: its slot is freed, its entry freed or IDLE, its records freed. -/
theorem State.RecordsMatch.endEntry {s t : State} {i : Nat} {e : Entry} {x : Option Entry} (g : s.RecordsMatch)
    (apart : s.HandsetsApart) (entry : s.entry? i = some e) (idle : ∀ f, x = some f → f.isIdle = true)
    (table : t.entry? = (s.setEntry i x).entry?) (sp : t.sp = (s.freeBearer e).sp) (setups : s.SetupsAt t i)
    (outbound : s.OutAt t i) (inbound : s.InAt t i) : t.RecordsMatch :=
  g.changeAt (i := i)
    { others := State.others_setEntry table
      cell := fun f c here cell => by
        rw [State.entry_setEntry table entry] at here
        rw [(Entry.of_isIdle (idle f here)).1] at cell
        cases cell
      slots := .freeBearer g apart entry sp
      setups := setups
      outbound := outbound
      inbound := inbound }

/-- An entry with the slot of the one before it, which was not LEAVING. -/
theorem State.RecordsMatch.sameSlot {s t : State} {i : Nat} {e f : Entry} (g : s.RecordsMatch) (entry : s.entry? i = some e)
    (handset : f.handset = e.handset) (cell : f.cell? = e.cell?) (table : t.entry? = (s.setEntry i (some f)).entry?)
    (sp : t.sp = s.sp) (elsewhere : ∀ m ∈ s.sp.moves, s.MovesElsewhere i m) (setups : s.SetupsAt t i)
    (outbound : s.OutAt t i) (inbound : s.InAt t i) : t.RecordsMatch :=
  g.changeAt (i := i)
    { others := State.others_setEntry table
      cell := fun x c here hc => by
        rw [State.entry_setEntry table entry] at here
        obtain rfl := Option.some.inj here
        have same : t.slotEntry c.slot = s.slotEntry c.slot := by simp only [State.slotEntry, sp]
        rw [same, handset]
        exact g.slots i e c entry (cell ▸ hc)
      slots := .of_eq sp elsewhere
      setups := setups
      outbound := outbound
      inbound := inbound }

/-- A place without a record stays so. -/
theorem State.setOut_none_of_none {s : State} {r : Nat} (h : s.outRecord? r = none) : s.setOut r none = s := by
  have same : s.he.outbound.setIfInBounds r none = s.he.outbound := by
    apply Vector.ext
    intro k hk
    rw [Vector.getElem_setIfInBounds]
    split
    · rename_i eq
      subst eq
      simpa [State.outRecord?, hk] using h.symm
    · rfl
  unfold State.setOut
  rw [same]

/-- A change at an entry that was IDLE or free, and so had no records. -/
theorem State.RecordsMatch.writeQuiet {s t : State} {i : Nat} (g : s.RecordsMatch)
    (quiet : ∀ e, s.entry? i = some e → e.isIdle = true) (others : ∀ j, j ≠ i → t.entry? j = s.entry? j) (sp : t.sp = s.sp)
    (cell : ∀ f c, t.entry? i = some f → f.cell? = some c →
      1 ≤ c.slot ∧ c.slot ≤ 15 ∧ (s.slotEntry c.slot).owner? = some f.handset)
    (outbound : t.he.outbound = s.he.outbound) (setups : (∀ r ∈ s.cc.setups, r.entry ≠ i) → s.SetupsAt t i)
    (inbound : (∀ r o, s.inRecord? r = some o → o.entry ≠ i) → s.InAt t i) : t.RecordsMatch := by
  have state := fun e entry => Entry.of_isIdle (quiet e entry)
  refine g.changeAt (i := i)
    { others := others
      cell := fun f c here hc => ?_
      slots := .of_eq sp fun m _ => g.movesElsewhere (fun e entry => (state e entry).2.2.2.1) m
      setups := setups (g.noSetup fun e entry => (state e entry).2.1)
      outbound := .of_eq outbound
        (g.noOut fun e entry => ⟨(state e entry).2.2.1, (state e entry).2.2.2.1⟩)
      inbound := inbound (g.noIn fun e entry => (state e entry).2.2.2.2) }
  have same : t.slotEntry c.slot = s.slotEntry c.slot := by simp only [State.slotEntry, sp]
  rw [same]
  exact cell f c here hc

/-- The first setup record of an entry. -/
theorem State.SetupsAt.added {s t : State} {i : Nat} {f : Entry} {r : SetupRecord} (g : s.RecordsMatch)
    (h : t.cc.setups = s.cc.setups ++ [r]) (owner : r.entry = i) (away : ∀ x ∈ s.cc.setups, x.entry ≠ i)
    (entry : t.entry? i = some f) (setup : f.isSetup = true) : s.SetupsAt t i := by
  refine ⟨fun x mem => ?_, ?_⟩
  · rw [h] at mem
    rcases List.mem_append.mp mem with old | new
    · exact Or.inl ⟨old, away x old⟩
    · obtain rfl := List.mem_singleton.mp new
      exact Or.inr ⟨owner, f, entry, setup⟩
  · rw [h, List.map_append, List.nodup_append]
    refine ⟨g.setupsOnce, by simp, ?_⟩
    intro a ha b hb
    obtain ⟨x, mem, rfl⟩ := List.mem_map.mp ha
    obtain rfl := List.mem_singleton.mp hb
    exact fun eq => away x mem (eq.trans owner)

/-- The first inbound record of an entry, at a free place. -/
theorem State.InAt.added {s t : State} {i r : Nat} {f : Entry} {p : InRecord} (owner : p.entry = i)
    (away : ∀ q o, s.inRecord? q = some o → o.entry ≠ i) (h : t.he.inbound = (s.setIn r (some p)).he.inbound)
    (entry : t.entry? i = some f) (arriving : f.isArriving = true) : s.InAt t i := by
  have same : ∀ q, t.inRecord? q = if q = r ∧ r < 4 then some p else s.inRecord? q := fun q => by
    rw [← State.inRecord?_setIn]
    simp only [State.inRecord?, h]
  have at_r : ∀ q o, t.inRecord? q = some o → o.entry = i → q = r := fun q o ho at_ => by
    rw [same] at ho
    split at ho
    · rename_i c
      exact c.1
    · exact absurd at_ (away q o ho)
  refine ⟨fun q o ho => ?_, fun q q' o o' ho ho' at_ at' => (at_r q o ho at_).trans (at_r q' o' ho' at').symm⟩
  rw [same] at ho
  split at ho
  · obtain rfl := Option.some.inj ho
    exact Or.inr ⟨owner, f, entry, arriving⟩
  · exact Or.inl ⟨ho, away q o ho⟩

/-! ### The serving side -/

section
variable {s : State} (g : s.RecordsMatch)
include g

/-- The record of an entry, written again on its side. -/
theorem State.RecordsMatch.rewriteOut {r : Nat} {o p : OutRecord} (record : s.outRecord? r = some o)
    (owner : p.entry = o.entry) (side : p.phase.newCell? = none ↔ o.phase.newCell? = none)
    (still : o.phase.NotSwitching) : (s.setOut r (some p)).RecordsMatch := by
  obtain ⟨e, entry, inCall, leaving⟩ := g.outbound r o record
  have alone : ∀ q x, s.outRecord? q = some x → x.entry = o.entry → q = r := fun q x hx at_ =>
    g.outboundOnce q r x o hx record at_
  refine g.changeAt (i := o.entry)
    { others := fun j _ => rfl
      cell := fun f c here cell => g.slots o.entry f c here cell
      slots := .of_eq rfl ?_
      setups := ⟨fun q mem => ?_, g.setupsOnce⟩
      outbound := .written (s := s) (r := r) owner alone (fun x hx => by rw [Option.some.inj (hx.symm.trans record)]) rfl entry
        ⟨fun h => inCall (side.mp h), fun h => leaving fun k => h (side.mpr k)⟩
      inbound := ⟨fun q x hx => ?_, fun q q' x x' hx hx' at_ at' => g.inboundOnce q q' x x' hx hx' (at_.trans at'.symm)⟩ }
  · rintro m - q x f c hx switching - - - at_
    obtain rfl := alone q x hx at_
    obtain rfl := Option.some.inj (hx.symm.trans record)
    exact switching still
  · by_cases at_ : q.entry = o.entry
    · obtain ⟨f, hf, setup⟩ := g.setups q mem
      exact Or.inr ⟨at_, f, at_ ▸ hf, setup⟩
    · exact Or.inl ⟨mem, at_⟩
  · by_cases at_ : x.entry = o.entry
    · obtain ⟨f, hf, arriving⟩ := g.inbound q x hx
      exact Or.inr ⟨at_, f, at_ ▸ hf, arriving⟩
    · exact Or.inl ⟨hx, at_⟩

/-- A SWITCHING record goes to FALLBACK, and its MOVE is withdrawn. -/
theorem State.RecordsMatch.startFallback {r : Nat} {o : OutRecord} {target : Nat} {m : Mark} {c : Cell}
    (record : s.outRecord? r = some o) (switching : o.phase = .switching target m c) (n : Nat) :
    ((s.withdrawMoveOf o.entry).setOut r (some { o with phase := .fallback target m c n })).RecordsMatch := by
  have alone : ∀ q x, s.outRecord? q = some x → x.entry = o.entry → q = r := fun q x hx at_ =>
    g.outboundOnce q r x o hx record at_
  obtain ⟨e, entry, -, leaving⟩ := g.outbound r o record
  have leaving : e.isLeaving = true := leaving (by simp [switching, OutPhase.newCell?])
  obtain ⟨notSetup, -, notArriving⟩ := Entry.of_isLeaving leaving
  have entries : ∀ j, (s.withdrawMoveOf o.entry).entry? j = s.entry? j := fun j => by simp
  have plan : ∀ k, (s.withdrawMoveOf o.entry).slotEntry k = s.slotEntry k := fun k => by
    unfold State.withdrawMoveOf
    split <;> rfl
  have changes : (s.withdrawMoveOf o.entry).sp.changes = s.sp.changes := by
    unfold State.withdrawMoveOf
    split <;> rfl
  have moves : ∀ m ∈ (s.withdrawMoveOf o.entry).sp.moves, m ∈ s.sp.moves ∧ ∀ d, e.cell? = some d → d.slot ≠ m.slot := by
    intro m mem
    unfold State.withdrawMoveOf at mem
    rw [entry] at mem
    split at mem
    · rename_i d cell
      obtain ⟨old, ne⟩ := List.mem_filter.mp mem
      refine ⟨old, fun x hx => ?_⟩
      obtain rfl := Option.some.inj (cell.symm.trans hx)
      exact fun eq => by simp [eq] at ne
    · rename_i none
      refine ⟨mem, fun d cell => ?_⟩
      exact absurd cell (by simp [show e.cell? = Option.none from none])
  refine g.changeAt (i := o.entry)
    { others := fun j _ => entries j
      cell := fun f d here cell => ?_
      slots := ⟨fun j f d _ _ _ => ?_, fun d mem => ?_, ?_, ?_⟩
      setups := .none g (by simp) ?_
      outbound := .written (s := s) (r := r) (p := { o with phase := .fallback target m c n }) rfl alone
        (fun x hx => by rw [Option.some.inj (hx.symm.trans record)]) (by simp [State.setOut]) ((entries _).trans entry) ⟨by simp [OutPhase.newCell?], fun _ => leaving⟩
      inbound := .of_eq (by simp) (g.noIn (State.atEntry entry notArriving)) }
  · show _ ∧ _ ∧ ((s.withdrawMoveOf o.entry).slotEntry d.slot).owner? = _
    rw [plan]
    exact g.slots o.entry f d ((entries _).symm.trans here) cell
  · exact congrArg SlotEntry.owner? (plan d.slot)
  · exact ⟨changes ▸ mem, congrArg SlotEntry.owner? (plan d.slot)⟩
  · unfold State.withdrawMoveOf
    split
    · exact List.filter_sublist
    · exact List.Sublist.refl _
  · rintro m mem q x f d - - entry' cell slot at_
    obtain rfl := State.entry_unique (at_ ▸ entry') entry
    exact (moves m mem).2 d cell slot
  · simpa using g.noSetup (State.atEntry entry notSetup)

/-- A record of a call here goes SWITCHING, and the call leaves. -/
theorem State.RecordsMatch.leave {r : Nat} {o p : OutRecord} {e : Entry} {c : Cell} {t : Tag} {k : Link}
    (record : s.outRecord? r = some o) (entry : s.entry? o.entry = some e)
    (inCall : e.phase = .inCall c t k) (owner : p.entry = o.entry) (switching : p.phase.newCell? ≠ none) :
    ((s.setEntry o.entry (some { e with phase := .leaving c t k })).setOut r (some p)).RecordsMatch := by
  have isInCall : e.isInCall = true := by simp only [Entry.isInCall, inCall]
  have cell : e.cell? = some c := by simp only [Entry.cell?, inCall]
  obtain ⟨notSetup, notLeaving, notArriving⟩ := Entry.of_isInCall isInCall
  exact g.sameSlot (f := { e with phase := .leaving c t k }) entry rfl cell.symm rfl rfl
    (fun m _ => g.movesElsewhere (State.atEntry entry notLeaving) m)
    (.none g (List.Sublist.refl _) (g.noSetup (State.atEntry entry notSetup)))
    (.written owner (fun q x hx at_ => g.outboundOnce q r x o hx record at_)
      (fun x hx => by rw [Option.some.inj (hx.symm.trans record)]) rfl (State.entry_setEntry (s := s) rfl entry)
      ⟨fun none => absurd none switching, fun _ => rfl⟩)
    (.of_eq rfl (g.noIn (State.atEntry entry notArriving)))

/-- A record is freed that is not SWITCHING, or whose call is not LEAVING. -/
theorem State.RecordsMatch.dropOutRecord (r : Nat) (still : ∀ o, s.outRecord? r = some o →
    o.phase.NotSwitching ∨ ∀ e, s.entry? o.entry = some e → e.isLeaving = false) : (s.setOut r none).RecordsMatch := by
  cases record : s.outRecord? r with
  | none => rwa [State.setOut_none_of_none record]
  | some o =>
    obtain ⟨e, entry, inCall, leaving⟩ := g.outbound r o record
    have notSetup : e.isSetup = false := by
      by_cases side : o.phase.newCell? = none
      · exact (Entry.of_isInCall (inCall side)).1
      · exact (Entry.of_isLeaving (leaving side)).1
    have notArriving : e.isArriving = false := by
      by_cases side : o.phase.newCell? = none
      · exact (Entry.of_isInCall (inCall side)).2.2
      · exact (Entry.of_isLeaving (leaving side)).2.2
    refine g.changeAt (i := o.entry)
      { others := fun _ _ => rfl
        cell := fun f c here cell => g.slots o.entry f c here cell
        slots := .of_eq rfl ?_
        setups := .none g (List.Sublist.refl _) (g.noSetup (State.atEntry entry notSetup))
        outbound := .freed g record rfl
        inbound := .of_eq rfl (g.noIn (State.atEntry entry notArriving)) }
    rintro m - q x f c hx switching - - - at_
    obtain rfl := g.outboundOnce q r x o hx record at_
    obtain rfl := Option.some.inj (hx.symm.trans record)
    rcases still x record with not | here
    · exact switching not
    · have side := leaving fun side => switching (OutPhase.notSwitching_of_newCell? side)
      rw [here e entry] at side
      cases side

end

/-- What an act keeps together: the handsets apart and the scan window in range are what the agreement rests on. -/
structure State.Consistent (s : State) : Prop where
  matched : s.RecordsMatch
  apart : s.HandsetsApart
  config : ConfigRecord.InRange s.sc.config

theorem State.EmptyOutOfService.recordsMatch {s : State} (g : s.EmptyOutOfService) : s.RecordsMatch where
  slots _ _ _ entry := (g.noEntry entry).elim
  changes c mem := by rw [g.changes] at mem; cases mem
  setups r mem := by rw [g.setups] at mem; cases mem
  setupsOnce := by rw [g.setups]; exact List.nodup_nil
  outbound _ _ record := (g.noOut record).elim
  outboundOnce _ _ _ _ record := (g.noOut record).elim
  inbound _ _ record := (g.noIn record).elim
  inboundOnce _ _ _ _ record := (g.noIn record).elim
  moves m mem := by rw [g.moves] at mem; cases mem
  movesOnce := by rw [g.moves]; exact List.nodup_nil

theorem act_recordsMatch (s t : State) (h : State.Act s t) (k : s.Consistent) : t.RecordsMatch := by
  obtain ⟨g, apart, config⟩ := k
  cases h with
  | waiting q => exact { g with }
  | timeBase b => exact { g with }
  | numbers drawn find seek cursor tag => exact { g with }
  | post kind h other tag reason mark => exact { g with }
  | hostLink l _ _ => exact { g with }
  | bus b _ _ => exact { g with }
  | measurement m _ _ => exact { g with }
  | hear h l c _ => exact { g with }
  | listen r _ => exact g.of_slots (by simp) (by simp) (by simp) (by simp [State.slotEntry]) (by simpa [State.slotEntry] using g.changes) (by simp)
  | station c _ _ => exact { g with }
  | clear _ empty _ _ _ _ _ _ => exact empty.recordsMatch
  | planner q cursor inForce sent _ _ => exact { g with }
  | commit slot e accepted =>
    obtain ⟨-, -, free, pending⟩ := (s.commitRefusal?_none_iff slot).mp accepted
    refine g.writeSlot slot e (fun i x c entry cell at_ => ?_) pending
    have owner := (g.slots i x c entry cell).2.2
    rw [at_, free] at owner
    cases owner
  | beacon _ =>
    refine g.writeSlot 0 _ (fun i x c entry cell at_ => ?_) (fun c mem at_ => ?_)
    · have := (g.slots i x c entry cell).1
      omega
    · have := (g.changes c mem).1
      omega
  | restore slot h => exact g.restoreSlot slot h
  | dueChanges => exact g.applyDueChanges
  | requestChange c => exact g.requestChange c
  | dropChanges => exact { g with changes := fun _ mem => absurd mem List.not_mem_nil }
  | withdrawMove slot => exact g.of_slots rfl rfl rfl (fun _ _ _ _ _ => rfl) g.changes List.filter_sublist
  | find r f _ => exact { g with }
  | rewrite i e f entry alike => exact g.rewrite entry alike
  | freeIdle i e entry idle =>
    refine g.writeQuiet (t := s.setEntry i none) (i := i) (State.atEntry entry idle)
      (State.others_setEntry rfl) rfl (fun f c here => ?_) rfl (fun away => .none g (List.Sublist.refl _) away) (.of_eq rfl)
    rw [State.entry_setEntry rfl entry] at here
    cases here
  | attach i f free notHeld idle _ =>
    have table : ((s.setEntry i (some f)).becomesHeld f.handset).entry? = (s.setEntry i (some f)).entry? := by simp
    refine g.writeQuiet (i := i) (fun x hx => by rw [free] at hx; cases hx) (State.others_setEntry table) rfl
      (fun x c here cell => ?_) rfl (fun away => .none g (List.Sublist.refl _) away) (.of_eq rfl)
    rw [table, State.entry?_setEntry] at here
    split at here
    · rw [← Option.some.inj here, (Entry.of_isIdle idle).1] at cell
      cases cell
    · rw [free] at here
      cases here
  | pages l rotation _ _ => exact { g with }
  | setups l fewer => exact g.of_setups rfl fewer
  | beginSetup i e c tag entry idle bearer =>
    have here : ((s.setEntry i (some { e with phase := .setup c tag Link.fresh })).addSetup i).entry? i
      = some { e with phase := .setup c tag Link.fresh } := State.entry_setEntry (s := s) rfl entry
    refine g.writeQuiet (i := i) (State.atEntry entry idle)
      (State.others_setEntry rfl) rfl (fun x d hx cell => ?_) rfl (fun away => .added g rfl rfl away here rfl) (.of_eq rfl)
    obtain rfl := Option.some.inj (here.symm.trans hx)
    obtain rfl := Option.some.inj cell
    exact bearer
  | callUp i e f entry setup handset cell inCall =>
    obtain ⟨notInCall, notLeaving, notArriving⟩ := Entry.of_isSetup setup
    exact g.sameSlot entry handset cell rfl rfl (fun m _ => g.movesElsewhere (State.atEntry entry notLeaving) m)
      (.dropSetup g rfl) (.of_eq rfl (g.noOut (State.atEntry entry ⟨notInCall, notLeaving⟩)))
      (.of_eq rfl (g.noIn (State.atEntry entry notArriving)))
  | setupFails i e r entry record =>
    have setup : e.isSetup = true := by
      obtain ⟨x, hx, setup⟩ := g.setups r (List.mem_of_find?_eq_some record)
      have owner : r.entry = i := by simpa using List.find?_some record
      exact State.entry_unique (owner ▸ hx) entry ▸ setup
    obtain ⟨notInCall, notLeaving, notArriving⟩ := Entry.of_isSetup setup
    refine g.endEntry apart entry (x := some { e with phase := .idle 0 }) (fun x hx => Option.some.inj hx ▸ rfl) ?_ rfl
      (.dropSetup g (by simp [State.dropSetup])) (.of_eq (by simp) (g.noOut (State.atEntry entry ⟨notInCall, notLeaving⟩)))
      (.of_eq (by simp) (g.noIn (State.atEntry entry notArriving)))
    exact funext fun j => by simp [State.entry?_setEntry]
  | endCall i e f entry idle =>
    exact g.endEntry apart entry (fun x hx => (idle x hx).1) (funext fun j => by simp [State.entry?_setEntry])
      (s.releaseCall_sp i e) (.dropSetup g (s.releaseCall_setups i e)) (.dropOut g (s.releaseCall_outbound i e))
      (.dropIn g (s.releaseCall_inbound i e))
  | fire r i e p m free entry inCall first owner seeking =>
    obtain ⟨notSetup, notLeaving, notArriving⟩ := Entry.of_isInCall inCall
    exact g.changeAt (i := i)
      { others := fun _ _ => rfl
        cell := fun f c here cell => g.slots i f c here cell
        slots := .of_eq rfl fun m _ => g.movesElsewhere (State.atEntry entry notLeaving) m
        setups := .none g (List.Sublist.refl _) (g.noSetup (State.atEntry entry notSetup))
        outbound := .written (r := r) (p := p) owner
          (fun q o record at_ => absurd at_ ((s.outOf_none_iff i).mp first q o record))
          (fun o record => by rw [free] at record; cases record) rfl entry
          ⟨fun _ => inCall, fun side => absurd (by rw [seeking]; rfl) side⟩
        inbound := .of_eq rfl (g.noIn (State.atEntry entry notArriving)) }
  | rewriteOut r o p record owner side still _ => exact g.rewriteOut record owner side still
  | dropOut r still => exact g.dropOutRecord r still
  | proceed r o e c t k target m newCell v record side entry inCall slot =>
    have left : ((s.setEntry o.entry (some { e with phase := .leaving c t k })).setOut r
        (some { o with phase := .switching target m newCell })).RecordsMatch :=
      g.leave record entry inCall rfl (by simp [OutPhase.newCell?])
    have hr := State.outRecord?_lt record
    exact left.setMove v r { o with phase := .switching target m newCell } { e with phase := .leaving c t k } c target m
      newCell (by rw [State.outRecord?_setOut, if_pos ⟨rfl, hr⟩]) rfl (State.entry_setEntry (s := s) rfl entry) rfl slot.symm
  | startFallback r o target m c n record switching => exact g.startFallback record switching n
  | stay r o e c t k record entry leaving moves =>
    have isLeaving : e.isLeaving = true := by simp only [Entry.isLeaving, leaving]
    obtain ⟨notSetup, -, notArriving⟩ := Entry.of_isLeaving isLeaving
    have cell : e.cell? = some c := by simp only [Entry.cell?, leaving]
    refine g.sameSlot (f := { e with phase := .inCall c t k }) entry rfl cell.symm rfl rfl ?_
      (.none g (List.Sublist.refl _) (g.noSetup (State.atEntry entry notSetup))) (.freed g record rfl)
      (.of_eq rfl (g.noIn (State.atEntry entry notArriving)))
    rintro m mem q x f d hx switching entry' cell' slot at_
    obtain rfl := State.entry_unique (at_ ▸ entry') entry
    obtain rfl := Option.some.inj (cell.symm.trans cell')
    obtain rfl := g.outboundOnce q r x o hx record at_
    obtain rfl := Option.some.inj (hx.symm.trans record)
    exact switching (moves m mem slot.symm)
  | loseOut r o e record entry leaving =>
    have isLeaving : e.isLeaving = true := by
      obtain ⟨x, hx, -, side⟩ := g.outbound r o record
      exact leaving.elim id fun new => State.entry_unique hx entry ▸ side new
    obtain ⟨notSetup, -, notArriving⟩ := Entry.of_isLeaving isLeaving
    exact g.endEntry apart entry (x := none) (by simp) (funext fun j => by simp [State.entry?_setEntry]) rfl
      (.none g (by simp) (by simpa using g.noSetup (State.atEntry entry notSetup))) (.freed g record (by simp [State.setOut]))
      (.of_eq (by simp) (g.noIn (State.atEntry entry notArriving)))
  | reserve r i f c t p o _ free index _ arriving record owner committed =>
    have table : (((s.becomesHeld f.handset).setEntry i (some f)).setIn r (some p)).entry? = (s.setEntry i (some f)).entry? :=
      funext fun j => by simp [State.entry?_setEntry]
    have here : (((s.becomesHeld f.handset).setEntry i (some f)).setIn r (some p)).entry? i = some f := by
      rw [table, State.entry?_setEntry_self _ _ _ index]
    refine g.writeQuiet (i := i) (fun x hx => by rw [free] at hx; cases hx) (State.others_setEntry table) rfl
      (fun x d hx cell => ?_) rfl (fun away => .none g (List.Sublist.refl _) away)
      (fun away => .added (r := r) (p := p) owner away rfl here (by simp only [Entry.isArriving, arriving]))
    obtain rfl := Option.some.inj (here.symm.trans hx)
    obtain rfl : c = d := by simpa only [Entry.cell?, arriving, Option.some.injEq] using cell
    exact committed config
  | rewriteIn r o p record owner =>
    refine g.setIn r _ ?_
    rintro x ⟨⟩
    exact ⟨o, record, owner.symm⟩
  | dropIn r => exact g.setIn r none (by simp)
  | arrive r o e f record entry arriving handset cell inCall =>
    obtain ⟨notSetup, notInCall, notLeaving⟩ := Entry.of_isArriving arriving
    exact g.sameSlot entry handset cell rfl rfl (fun m _ => g.movesElsewhere (State.atEntry entry notLeaving) m)
      (.none g (List.Sublist.refl _) (g.noSetup (State.atEntry entry notSetup)))
      (.of_eq rfl (g.noOut (State.atEntry entry ⟨notInCall, notLeaving⟩))) (.freed g record rfl)
  | missArrival r o e record entry =>
    have arriving : e.isArriving = true := by
      obtain ⟨x, hx, arriving⟩ := g.inbound r o record
      exact State.entry_unique hx entry ▸ arriving
    obtain ⟨notSetup, notInCall, notLeaving⟩ := Entry.of_isArriving arriving
    exact g.endEntry apart entry (x := none) (by simp) (funext fun j => by simp [State.entry?_setEntry]) rfl
      (.none g (by simp) (by simpa using g.noSetup (State.atEntry entry notSetup)))
      (.of_eq (by simp) (g.noOut (State.atEntry entry ⟨notInCall, notLeaving⟩))) (.freed g record (by simp [State.setIn]))

theorem act_consistent (s t : State) (h : State.Act s t) (k : s.Consistent) : t.Consistent :=
  ⟨act_recordsMatch s t h k, act_handsetsApart s t h k.apart, act_configInRange s t h k.config⟩

/-- Settles O55: each act of a step keeps the agreement, together with the handsets apart and the configuration in range that
it rests on. -/
theorem everyStepKeepsRecordsMatched : Obligations.EveryStepKeepsRecordsMatched :=
  fun _ _ matched apart levels h => (step_keeps_of_acts act_consistent ⟨matched, apart, levels.config⟩ h).matched

/-! ### Records are no more than what they are of -/

/-- A list whose keys differ has at most as many elements as there are places, where each key has a place of its own. -/
theorem length_le_of_places {α β : Type} [DecidableEq β] {l : List α} {key : α → β} (place : β → Nat → Prop)
    (places : Finset Nat) (once : (l.map key).Nodup) (has : ∀ x ∈ l, ∃ n, n ∈ places ∧ place (key x) n)
    (own : ∀ n b b', place b n → place b' n → b = b') : l.length ≤ places.card := by
  have count := Finset.card_le_card_of_forall_subsingleton (s := (l.map key).toFinset) (t := places) place
    (fun b mem => by
      obtain ⟨x, hx, rfl⟩ := List.mem_map.mp (List.mem_toFinset.mp mem)
      exact has x hx)
    (fun n _ b hb b' hb' => own n b b' hb.2 hb'.2)
  rwa [List.toFinset_card_of_nodup once, List.length_map] at count

/-- An entry with its bearer slot. -/
def State.BearerSlot (s : State) (i slot : Nat) : Prop := ∃ e c, s.entry? i = some e ∧ e.cell? = some c ∧ c.slot = slot

/-- R18: a slot is of one entry, because its owner is one handset. -/
theorem State.RecordsMatch.bearerSlot_unique {s : State} (g : s.RecordsMatch) (apart : s.HandsetsApart) {i j slot : Nat}
    (hi : s.BearerSlot i slot) (hj : s.BearerSlot j slot) : i = j := by
  obtain ⟨e, c, entry, cell, rfl⟩ := hi
  obtain ⟨f, d, entry', cell', same⟩ := hj
  have owner := (g.slots i e c entry cell).2.2
  rw [← same, (g.slots j f d entry' cell').2.2] at owner
  exact apart.table i j e f entry entry' (Option.some.inj owner).symm

/-- R96: each setup record is of an entry with a slot of 1 to 15. -/
theorem State.RecordsMatch.setups_length {s : State} (g : s.RecordsMatch) (apart : s.HandsetsApart) :
    s.cc.setups.length ≤ 15 := by
  refine length_le_of_places s.BearerSlot (Finset.Icc 1 15) g.setupsOnce (fun r mem => ?_)
    (fun slot i j hi hj => g.bearerSlot_unique apart hi hj)
  obtain ⟨e, entry, setup⟩ := g.setups r mem
  obtain ⟨c, cell⟩ := Entry.cell?_of_isSetup setup
  obtain ⟨low, high, -⟩ := g.slots _ e c entry cell
  exact ⟨c.slot, Finset.mem_Icc.mpr ⟨low, high⟩, e, c, entry, cell, rfl⟩

/-- R33: each standing MOVE is of one of the four outbound records. -/
theorem State.RecordsMatch.moves_length {s : State} (g : s.RecordsMatch) : s.sp.moves.length ≤ 4 := by
  refine length_le_of_places (fun slot r => ∃ o, s.outRecord? r = some o ∧ s.BearerSlot o.entry slot) (Finset.range 4)
    g.movesOnce (fun m mem => ?_) ?_
  · obtain ⟨r, o, e, c, -, -, -, record, -, entry, cell, slot⟩ := g.moves m mem
    exact ⟨r, Finset.mem_range.mpr (State.outRecord?_lt record), o, record, e, c, entry, cell, slot⟩
  · rintro r slot slot' ⟨o, record, e, c, entry, cell, rfl⟩ ⟨p, record', f, d, entry', cell', rfl⟩
    obtain rfl := Option.some.inj (record.symm.trans record')
    obtain rfl := State.entry_unique entry entry'
    rw [Option.some.inj (cell.symm.trans cell')]

/-- Settles O54: each act of a step keeps the sizes; the agreement of the records bounds the two lists without a size. -/
theorem everyStepKeepsCapacities : Obligations.EveryStepKeepsCapacities :=
  ⟨fun _ _ => step_keeps_of_acts act_withinCapacity, fun _ g apart => ⟨g.setups_length apart, g.moves_length⟩⟩

end Sys2Proof.Machine
end

section
/-! The requests of the slot plan and of the beacon downlink queue, against their rules. -/
namespace Sys2Proof.Machine

/-! ### The beacon downlink queue (R31) -/

theorem State.beaconAdmits_iff (s : State) : s.beaconAdmits = true ↔ s.sp.beaconQ.length < 8 := by
  simp [State.beaconAdmits, Config.beaconPlaces]

theorem State.beaconAdmits_full {s : State} (h : 8 ≤ s.sp.beaconQ.length) : s.beaconAdmits = false := by
  rw [Bool.eq_false_iff, Ne, State.beaconAdmits_iff]
  omega

/-- Settles O25: the queue admits a message exactly while it is not full, and a GRANT that it discards counts as a DENY. -/
theorem beaconQueueAdmission : Obligations.BeaconQueueAdmission := by
  have room : ∀ s : State, s.sp.beaconQ.length < 8 → s.beaconAdmits = true := fun s => s.beaconAdmits_iff.mpr
  refine ⟨fun s m h => ?_, fun s m h => ?_, fun s h free => ?_, fun s h full => ?_, fun _ _ _ => rfl, fun _ _ _ => rfl⟩
  · rw [State.offerBeacon, if_pos (room s h)]
  · rw [State.offerBeacon, State.beaconAdmits_full h]
    rfl
  · rw [State.grant, if_pos (room s free)]
  · rw [State.grant, State.beaconAdmits_full full]
    rfl

/-! ### Direct writes of the slot plan (R19 to R21) -/

/-- R19: the refusals of a commit request, each at the first check that fails. -/
theorem State.commitRefusal?_cases (s : State) (slot : Nat) :
    (¬(1 ≤ slot ∧ slot ≤ 15) → s.commitRefusal? slot = some .slotZero)
    ∧ (1 ≤ slot → slot ≤ 15 → s.serving = false → s.commitRefusal? slot = some .notServing)
    ∧ (1 ≤ slot → slot ≤ 15 → s.serving = true → s.slotEntry slot ≠ .free → s.commitRefusal? slot = some .notFree)
    ∧ (1 ≤ slot → slot ≤ 15 → s.serving = true → s.slotEntry slot = .free → (∃ c ∈ s.sp.changes, c.slot = slot) →
        s.commitRefusal? slot = some .pending) := by
  unfold State.commitRefusal?
  refine ⟨fun range => ?_, fun low high idle => ?_, fun low high serving taken => ?_,
    fun low high serving free pending => ?_⟩
  · rw [if_pos range]
  · rw [if_neg (not_not.mpr ⟨low, high⟩), if_pos (by simpa using idle)]
  · rw [if_neg (not_not.mpr ⟨low, high⟩), if_neg (by simpa using serving), if_pos (by simpa using taken)]
  · rw [if_neg (not_not.mpr ⟨low, high⟩), if_neg (by simpa using serving), if_neg (by simpa using free),
      if_pos ((s.slotPending_iff slot).mpr pending)]

theorem State.restorable_iff (s : State) (slot : Nat) (h : Handset) :
    s.restorable slot h = true ↔ ∃ c, s.slotEntry slot = .held c h := by
  unfold State.restorable
  cases s.slotEntry slot <;> simp

/-- Settles O13: a commit, a restore and a free request, each with what it leaves. -/
theorem directWritesOfTheSlotPlan : Obligations.DirectWritesOfTheSlotPlan := by
  refine ⟨fun s slot => ?_, fun s slot h => ⟨fun c held => ?_, fun other => ?_, by simp⟩, State.freeSlot_zero,
    fun s slot pos => ?_⟩
  · obtain ⟨slotZero, notServing, notFree, pending⟩ := s.commitRefusal?_cases slot
    refine ⟨slotZero, notServing, notFree, pending, fun low high serving free none => ?_, fun h => State.commit_refused h⟩
    have accepted := (s.commitRefusal?_none_iff slot).mpr ⟨⟨low, high⟩, serving, free, none⟩
    refine ⟨accepted, fun e => ⟨?_, State.commit_accepted accepted e⟩⟩
    rw [State.commit_accepted accepted, State.slotEntry_writeSlot_self _ _ _ (by omega)]
  · have range : slot < 16 := by
      by_contra big
      rw [State.slotEntry_big s slot (by omega)] at held
      cases held
    rw [State.restoreSlot_held held]
    exact ⟨(s.restorable_iff slot h).mpr ⟨c, held⟩, State.slotEntry_writeSlot_self _ _ _ range,
      fun k ne => State.slotEntry_writeSlot_other _ _ _ _ ne⟩
  · refine ⟨?_, State.restoreSlot_other other⟩
    rw [Bool.eq_false_iff, Ne, State.restorable_iff]
    rintro ⟨c, held⟩
    exact other c held
  · refine ⟨?_, fun k ne => ?_, s.freeSlot_changes slot pos, s.freeSlot_moves slot pos, ?_⟩
    · rw [State.slotEntry_freeSlot, if_pos ⟨rfl, pos⟩]
    · rw [State.slotEntry_freeSlot, if_neg fun same => ne same.1]
    · rw [State.freeSlot, if_neg pos]
      rfl

/-! ### Plan changes (R23 to R25, R33) -/

/-- R23: the refusals of a plan change request, each at the first check that fails. -/
theorem State.changeRefusal?_cases (s : State) (c : PlanChange) :
    (¬(1 ≤ c.slot ∧ c.slot ≤ 15) → s.changeRefusal? c = some .slotZero)
    ∧ (1 ≤ c.slot → c.slot ≤ 15 → s.tb.known = false → s.changeRefusal? c = some .noSync)
    ∧ (1 ≤ c.slot → c.slot ≤ 15 → s.tb.known = true → s.tb.within c.mark 1 128 = false →
        s.changeRefusal? c = some .outOfRange)
    ∧ (1 ≤ c.slot → c.slot ≤ 15 → s.tb.known = true → s.tb.within c.mark 1 128 = true →
        (∀ h, (s.slotEntry c.slot).owner? = some h → c.entry.owner? ≠ some h) → s.changeRefusal? c = some .notOwner)
    ∧ (∀ h, 1 ≤ c.slot → c.slot ≤ 15 → s.tb.known = true → s.tb.within c.mark 1 128 = true →
        (s.slotEntry c.slot).owner? = some h → c.entry.owner? = some h →
        (∀ d ∈ s.sp.changes, ¬(d.slot = c.slot ∧ d.mark = c.mark)) → 8 ≤ s.sp.changes.length →
        s.changeRefusal? c = some .listFull) := by
  unfold State.changeRefusal?
  refine ⟨fun range => ?_, fun low high unknown => ?_, fun low high known outside => ?_,
    fun low high known within other => ?_, fun h low high known within owner owner' none full => ?_⟩
  · rw [if_pos range]
  · rw [if_neg (not_not.mpr ⟨low, high⟩), if_pos (by simpa using unknown)]
  · rw [if_neg (not_not.mpr ⟨low, high⟩), if_neg (by simpa using known), if_pos (by simpa using outside)]
  · rw [if_neg (not_not.mpr ⟨low, high⟩), if_neg (by simpa using known), if_neg (by simpa using within), if_pos]
    cases owner : (s.slotEntry c.slot).owner? with
    | none => simp [SlotEntry.isCommitted, owner]
    | some h => simpa [SlotEntry.isCommitted, owner] using fun same => other h owner same.symm
  · rw [if_neg (not_not.mpr ⟨low, high⟩), if_neg (by simpa using known), if_neg (by simpa using within),
      if_neg (by simp [SlotEntry.isCommitted, owner, owner']), if_pos]
    simpa [Config.changePlaces] using ⟨fun d mem same mark => none d mem ⟨same, mark⟩, full⟩

/-- R24: a change for a slot and mark that no change is for goes at the end. -/
theorem placeChange_new {c : PlanChange} {l : List PlanChange} (h : ∀ d ∈ l, ¬(d.slot = c.slot ∧ d.mark = c.mark)) :
    placeChange c l = l ++ [c] := by
  rw [placeChange, if_neg]
  simpa using fun d mem same mark => h d mem ⟨same, mark⟩

/-- R24: a change in the place of the one for its slot and mark. -/
theorem placeChange_replace {c d : PlanChange} {before after : List PlanChange} (slot : d.slot = c.slot)
    (mark : d.mark = c.mark) (h : ∀ x ∈ before ++ after, ¬(x.slot = c.slot ∧ x.mark = c.mark)) :
    placeChange c (before ++ d :: after) = before ++ c :: after := by
  have kept : ∀ l : List PlanChange, (∀ x ∈ l, x ∈ before ++ after) →
      l.map (fun x => if x.slot == c.slot && x.mark == c.mark then c else x) = l := fun l sub =>
    (List.map_congr_left fun x mem => if_neg (by simpa using h x (sub x mem))).trans (List.map_id' l)
  rw [placeChange, if_pos (by simp [slot, mark]), List.map_append, List.map_cons, kept before (by simp +contextual),
    kept after (by simp +contextual), if_pos (by simp [slot, mark])]

/-- R25: a slot that due changes write, all with the same entry, has that entry. -/
theorem SlotPlanner.applyChanges_written (l : List PlanChange) (p : SlotPlanner) (k : Nat) (e : SlotEntry) (range : k < 16)
    (same : ∀ c ∈ l, c.slot = k → c.entry = e) (some_ : ∃ c ∈ l, c.slot = k) :
    ((p.applyChanges l).plan[k]?).getD .free = e := by
  induction l generalizing p with
  | nil => simp at some_
  | cons c l ih =>
    rw [SlotPlanner.applyChanges_cons]
    by_cases later : ∃ d ∈ l, d.slot = k
    · exact ih _ (fun d mem => same d (List.mem_cons_of_mem _ mem)) later
    · obtain ⟨d, mem, at_⟩ := some_
      obtain rfl : d = c := by
        rcases List.mem_cons.mp mem with rfl | old
        · rfl
        · exact absurd ⟨d, old, at_⟩ later
      rw [SlotPlanner.applyChanges_other l _ k fun x mem here => later ⟨x, mem, here⟩, SlotPlanner.write_plan, ← at_]
      simp [same d mem at_, at_, range]

/-- R25, R33: what PLAN_CHANGE_DUE does to the plan and to the standing MOVEs. -/
theorem State.applyDueChanges_spec (s : State) :
    (∀ slot, (∀ c ∈ s.sp.changes, s.tb.due c.mark = true → c.slot ≠ slot) →
      s.applyDueChanges.slotEntry slot = s.slotEntry slot)
    ∧ (∀ c ∈ s.sp.changes, s.tb.due c.mark = true → c.slot < 16 →
        (∀ d ∈ s.sp.changes, s.tb.due d.mark = true → d.slot = c.slot → d.entry = c.entry) →
        s.applyDueChanges.slotEntry c.slot = c.entry)
    ∧ (∀ m, m ∈ s.applyDueChanges.sp.moves ↔ m ∈ s.sp.moves ∧ ∀ c ∈ s.sp.changes, s.tb.due c.mark = true →
        c.slot = m.slot → ∃ carrier, c.entry = .bearer carrier m.handset) := by
  have isDue : ∀ c, c ∈ (s.sp.changes.filter fun c => s.tb.due c.mark) ↔ c ∈ s.sp.changes ∧ s.tb.due c.mark = true :=
    fun c => List.mem_filter
  refine ⟨fun slot other => ?_, fun c mem due range same => ?_, fun m => ?_⟩
  · refine congrArg (·.getD .free) (SlotPlanner.applyChanges_other _ s.sp slot fun c mem => ?_)
    exact other c ((isDue c).mp mem).1 ((isDue c).mp mem).2
  · refine SlotPlanner.applyChanges_written _ s.sp c.slot c.entry range (fun d mem' at_ => ?_)
      ⟨c, (isDue c).mpr ⟨mem, due⟩, rfl⟩
    exact same d ((isDue d).mp mem').1 ((isDue d).mp mem').2 at_
  · refine (SlotPlanner.mem_moves_applyChanges _ s.sp m).trans (and_congr_right fun _ => ?_)
    simp only [isDue, and_imp]

/-- Settles O14: PLAN_CHANGE_DUE writes and removes what is due; a request passes the five checks in order and takes the place
of a change for the same slot and mark. -/
theorem planChangesAreAdmittedAndApplied : Obligations.PlanChangesAreAdmittedAndApplied := by
  refine ⟨fun s => ?_, fun s c => ?_, fun _ _ => ⟨rfl, rfl, rfl, rfl, rfl⟩,
    fun s c => ⟨State.requestChange_refused, State.requestChange_accepted⟩, fun s c none => ?_,
    fun s c d before after list slot mark others => ?_, fun _ _ _ => rfl⟩
  · have rest : s.applyDueChanges = { s with sp := { s.sp with
        plan := s.applyDueChanges.sp.plan, moves := s.applyDueChanges.sp.moves
        changes := s.sp.changes.filter fun c => !s.tb.due c.mark } } := by
      conv_lhs => rw [State.applyDueChanges, SlotPlanner.applyChanges_rest]
      rfl
    exact ⟨s.applyDueChanges, rfl, rest, s.applyDueChanges_spec⟩
  · obtain ⟨slotZero, noSync, outOfRange, notOwner, listFull⟩ := s.changeRefusal?_cases c
    refine ⟨slotZero, noSync, outOfRange, notOwner, fun h low high known within owner owner' => ⟨fun place => ?_,
      listFull h low high known within owner owner'⟩⟩
    refine (s.changeRefusal?_none_iff c).mpr ⟨⟨low, high⟩, known, within, ⟨h, owner, owner'⟩, place.imp_left ?_⟩
    rintro ⟨d, mem, same, mark⟩
    exact List.any_eq_true.mpr ⟨d, mem, by simp [same, mark]⟩
  · rw [State.admitChange, placeChange_new none]
  · rw [State.admitChange, list, placeChange_replace slot mark others]

end Sys2Proof.Machine
end

section
/-! The frame plan of a strobe: what it gives each slot, the messages sent with it, and what moves on. -/
namespace Sys2Proof.Machine

/-- R27: what the plan in force gives a slot after a strobe. -/
theorem State.planned_buildPlan (s : State) (slot : Nat) (range : slot < 16) :
    s.buildPlan.planned slot = { role := s.roleOf slot, reported := false } := by
  show (s.framePlan[slot]?).getD _ = _
  simp [State.framePlan, range]

theorem State.hasBeacon_iff (s : State) : s.hasBeacon = true ↔ s.slotEntry 0 = .beacon := by
  simp [State.hasBeacon]

/-- R29: the slots of the background scan. -/
theorem State.scans_iff (s : State) (slot : Nat) : s.scans slot = true ↔
    s.joined = true ∧ s.sc.config.scanFirstSlot ≤ slot ∧ slot ≤ s.sc.config.scanLastSlot ∧ 1 ≤ slot ∧ slot ≤ 15 := by
  simp [State.scans, and_assoc]

theorem State.freeRole_targeted {s : State} {slot : Nat} {r : ListenRequest} (pos : slot ≠ 0)
    (found : s.targetedFor slot = some r) : s.freeRole slot = .listen r.cell.carrier (some r) := by
  rw [State.freeRole, if_neg pos, found]

theorem State.freeRole_scan {s : State} {slot : Nat} (pos : slot ≠ 0) (none : s.targetedFor slot = none)
    (scans : s.scans slot = true) : s.freeRole slot = .listen (scanCarrier s.sc.config s.sp.cursor slot) Option.none := by
  rw [State.freeRole, if_neg pos, none]
  exact if_pos scans

theorem State.freeRole_idle {s : State} {slot : Nat} (none : s.targetedFor slot = none) (quiet : s.scans slot = false) :
    s.freeRole slot = .idle := by
  rw [State.freeRole]
  split
  · rfl
  · rw [none]
    exact if_neg (by simp [quiet])

/-- R29: the carrier of a staggered scan, which lies in the window. -/
theorem scanCarrier_staggered {c : ConfigRecord} {k slot : Nat} (order : c.scanOrder = .staggered)
    (window : c.scanFirstCarrier ≤ c.scanLastCarrier) : (scanCarrier c k slot : Int) = c.scanFirstCarrier
      + ((k : Int) - c.scanFirstCarrier + slot - c.scanFirstSlot) % ((c.scanLastCarrier : Int) - c.scanFirstCarrier + 1) := by
  have := Int.emod_nonneg ((k : Int) - c.scanFirstCarrier + slot - c.scanFirstSlot)
    (b := (c.scanLastCarrier : Int) - c.scanFirstCarrier + 1) (by omega)
  rw [scanCarrier, order]
  exact Int.toNat_of_nonneg (by omega)

/-- R32: the arbiter takes the oldest message of the queue; with none the page rotation moves on. -/
theorem State.afterArbiter_eq (s : State) : s.afterArbiter = { s with
    sp := { s.sp with beaconQ := s.sp.beaconQ.tail }
    cc := { s.cc with
      rotation := if s.sp.beaconQ = [] then s.cc.rotation.bind (followingPage s.cc.pages) else s.cc.rotation } } := by
  unfold State.afterArbiter
  split
  · rename_i m rest queue
    rw [if_neg (by simp [queue]), show s.sp.beaconQ.tail = rest by rw [queue]; rfl]
  · rename_i queue
    rw [if_pos queue, show s.sp.beaconQ.tail = s.sp.beaconQ by rw [queue]; rfl]
    rfl

/-- R32: the whole of what a strobe's frame plan changes. -/
theorem State.buildPlan_eq (s : State) : s.buildPlan = { s with
      sp := { s.sp with
        inForce := s.buildPlan.sp.inForce
        sent := s.planMessages
        beaconQ := if s.slotEntry 0 = .beacon then s.sp.beaconQ.tail else s.sp.beaconQ
        cursor := if s.sp.cursor < s.sc.config.scanLastCarrier then s.sp.cursor + 1 else s.sc.config.scanFirstCarrier }
      cc := { s.cc with
        rotation := if s.slotEntry 0 = .beacon ∧ s.sp.beaconQ = [] then s.cc.rotation.bind (followingPage s.cc.pages)
          else s.cc.rotation } } := by
  unfold State.buildPlan
  by_cases beacon : s.slotEntry 0 = .beacon
  · simp only [s.hasBeacon_iff.mpr beacon, beacon, if_true, true_and, State.afterArbiter_eq]
    rfl
  · simp only [Bool.eq_false_iff.mpr (mt s.hasBeacon_iff.mp beacon), beacon, if_false, false_and]
    rfl

theorem SlotEntry.isBearerFor_iff (e : SlotEntry) (h : Handset) : e.isBearerFor h = true ↔ ∃ c, e = .bearer c h := by
  cases e <;> simp [SlotEntry.isBearerFor]

/-- R33: a slot's downlink carries a standing MOVE of the slot for the handset that the slot is BEARER for. -/
theorem State.moveFor_some {s : State} {slot : Nat} {m : Move} (h : s.moveFor slot = some m) :
    m ∈ s.sp.moves ∧ m.slot = slot ∧ ∃ c, s.slotEntry slot = .bearer c m.handset := by
  have found := List.find?_some h
  rw [Bool.and_eq_true, beq_iff_eq, SlotEntry.isBearerFor_iff] at found
  exact ⟨List.mem_of_find?_eq_some h, found⟩

theorem State.moveFor_none {s : State} {slot : Nat} (h : s.moveFor slot = none) :
    ∀ m ∈ s.sp.moves, m.slot = slot → ∀ c, s.slotEntry slot ≠ .bearer c m.handset := by
  intro m mem at_ c bearer
  have none := List.find?_eq_none.mp h m mem
  rw [Bool.and_eq_true, beq_iff_eq, SlotEntry.isBearerFor_iff] at none
  exact none ⟨at_, c, bearer⟩

theorem State.beaconMessages_eq (s : State) : s.beaconMessages =
    { slot := 0, message := .header s.sc.config.stationNumber s.tb.mark s.tb.known s.beaconFlag } ::
      (match s.sp.beaconQ with
        | m :: _ => [{ slot := 0, message := m }]
        | [] =>
          match s.cc.rotation.bind s.page? with
          | some p => [{ slot := 0, message := .page p.handset p.tag }]
          | none => []) := by
  unfold State.beaconMessages State.beaconMessage? State.nextPage?
  cases s.sp.beaconQ with
  | cons m rest => rfl
  | nil => cases s.cc.rotation.bind s.page? <;> rfl

theorem State.freeIndex_isSome_iff (s : State) : s.freeIndex.isSome = true ↔ ∃ i, i < 64 ∧ s.entry? i = none := by
  cases found : s.freeIndex with
  | some i => simpa using ⟨i, State.freeIndex_some found⟩
  | none =>
    have := (firstPlace_none s.rc.table Option.isNone).mp found
    simp only [Option.isSome_none, Bool.false_eq_true, false_iff, not_exists, not_and]
    intro i range free
    have taken := this i range
    rw [State.entry?] at free
    simp [free] at taken

/-- R100: the rotation goes to the record after, or to the first after the last. -/
theorem followingPage_cons {before after : List PageRecord} {p : PageRecord} (h : ∀ x ∈ before, x.handset ≠ p.handset) :
    followingPage (before ++ p :: after) p.handset
      = (after.head?.map (·.handset)).or ((before ++ p :: after).head?.map (·.handset)) := by
  rw [followingPage, findIdx?_page before after p h]
  cases after with
  | nil => simp
  | cons q rest => simp

theorem followingPage_none {pages : List PageRecord} {h : Handset} (absent : ∀ x ∈ pages, x.handset ≠ h) :
    followingPage pages h = none := by
  rw [followingPage, List.findIdx?_eq_none_iff.mpr (by simpa using absent)]

/-- Settles O15: the frame plan, the messages, the arbiter's choice, the page rotation and the scan cursor. -/
theorem framePlanFollowsTheSlotPlan : Obligations.FramePlanFollowsTheSlotPlan := by
  refine ⟨fun s slot range => ⟨?_, rfl, fun r => State.freeRole_targeted, fun pos none joined low high => ?_,
      fun none off => ?_⟩,
    fun c k slot => ⟨fun order => ?_, scanCarrier_staggered⟩, State.buildPlan_eq, fun s => ?_,
    fun s slot => ⟨fun m => State.moveFor_some, State.moveFor_none⟩, fun s => ⟨fun draining => ?_, fun other free => ?_,
      fun other full => ?_⟩, fun before after p apart => ⟨fun q => ?_, ?_⟩, fun pages h => followingPage_none⟩
  · exact s.planned_buildPlan slot range
  · exact State.freeRole_scan pos none ((s.scans_iff slot).mpr ⟨joined, low, high, by omega, by omega⟩)
  · refine State.freeRole_idle none ?_
    rw [Bool.eq_false_iff, Ne, State.scans_iff]
    rintro ⟨joined, low, high, -⟩
    rcases off with idle | below | above
    · exact absurd (joined.symm.trans idle) (by simp)
    · omega
    · omega
  · rw [scanCarrier, order]
  · rw [State.planMessages, State.beaconMessages_eq]
    congr 1
    · exact if_congr s.hasBeacon_iff rfl rfl
    · refine List.flatMap_congr fun slot _ => ?_
      cases found : s.moveFor slot with
      | none => rfl
      | some m =>
        obtain ⟨-, at_, -⟩ := State.moveFor_some found
        simp [Move.message, at_]
  · simp [State.beaconFlag, draining]
  · simp [State.beaconFlag, other, s.freeIndex_isSome_iff.mpr free]
  · have none : ¬s.freeIndex.isSome = true := by
      rw [s.freeIndex_isSome_iff]
      rintro ⟨i, range, free⟩
      exact full i range free
    rw [State.beaconFlag, if_neg (by simpa using other), if_neg none]
  · rw [followingPage_cons apart]
    rfl
  · rw [followingPage_cons apart]
    rfl

end Sys2Proof.Machine
end

section
/-! Deadlines of handover records: what each does when it falls due, and that it does nothing before. -/
namespace Sys2Proof.Machine

section
variable {r : Fin 4} {s : State}

/-! ### Outbound records -/

theorem exec_replyByMarkDue_due {o : OutRecord} {e : Entry} {m : Mark} {l : List Candidate}
    (record : s.outRecord? r.val = some o) (phase : o.phase = .seeking m l) (due : s.tb.due m = true)
    (entry : s.entry? o.entry = some e) : exec (.replyByMarkDue r) s = .next
      (askFrom r.val o e (qualifying (e.merit s.sc.config) o.margin l) .noCandidate 0 s) := by
  show execReplyByMarkDue r s = _
  simp only [execReplyByMarkDue, State.closeWindow, record, phase, entry, due, if_true]

theorem exec_replyByMarkDue_early
    (early : ∀ o m l, s.outRecord? r.val = some o → o.phase = .seeking m l → s.tb.due m = false) :
    exec (.replyByMarkDue r) s = .next s := by
  refine congrArg Host.Outcome.next ?_
  cases record : s.outRecord? r.val with
  | none => rfl
  | some o =>
    cases phase : o.phase with
    | seeking m l => simp only [phase, early o m l record phase, Bool.false_eq_true, if_false]
    | asking | switching | fallback => simp only [phase]

theorem exec_takeTimeout_due {o : OutRecord} {e : Entry} {l : List Candidate} {target : Nat} {m : Mark} {n : Nat}
    (record : s.outRecord? r.val = some o) (phase : o.phase = .asking l target m n) (last : n ≤ 1)
    (entry : s.entry? o.entry = some e) : exec (.takeTimeout r) s = .next
      (askFrom r.val o e (l.filter fun c => c.station != target) .timeout target s) := by
  show execTakeTimeout r s = _
  simp only [execTakeTimeout, State.nextCandidate, record, phase, entry, last, if_true]

theorem exec_takeTimeout_early
    (early : ∀ o l t m n, s.outRecord? r.val = some o → o.phase = .asking l t m n → 2 ≤ n) :
    exec (.takeTimeout r) s = .next s := by
  refine congrArg Host.Outcome.next ?_
  cases record : s.outRecord? r.val with
  | none => rfl
  | some o =>
    cases phase : o.phase with
    | asking l t m n =>
      have := early o l t m n record phase
      simp only [phase, show ¬n ≤ 1 by omega, if_false]
    | seeking | switching | fallback => simp only [phase]

theorem exec_switchMarkDueOutbound_due {o : OutRecord} {target : Nat} {m : Mark} {c : Cell}
    (record : s.outRecord? r.val = some o) (phase : o.phase = .switching target m c) (due : s.tb.due m = true) :
    exec (.switchMarkDueOutbound r) s = .next ((s.withdrawMoveOf o.entry).setOut r.val
      (some { o with phase := .fallback target m c s.sc.config.fallbackWindow })) := by
  show execSwitchMarkDueOutbound r s = _
  simp only [execSwitchMarkDueOutbound, State.startFallback, record, phase, due, if_true]

theorem exec_switchMarkDueOutbound_early
    (early : ∀ o t m c, s.outRecord? r.val = some o → o.phase = .switching t m c → s.tb.due m = false) :
    exec (.switchMarkDueOutbound r) s = .next s := by
  refine congrArg Host.Outcome.next ?_
  cases record : s.outRecord? r.val with
  | none => rfl
  | some o =>
    cases phase : o.phase with
    | switching t m c => simp only [phase, early o t m c record phase, Bool.false_eq_true, if_false]
    | seeking | asking | fallback => simp only [phase]

/-- R33: the MOVE of an entry with a bearer cell is withdrawn. -/
theorem State.withdrawMoveOf_cell {i : Nat} {e : Entry} {c : Cell} (entry : s.entry? i = some e) (cell : e.cell? = some c) :
    s.withdrawMoveOf i = s.withdrawMove c.slot := by
  have found : (s.entry? i).bind Entry.cell? = some c := Option.bind_eq_some_iff.mpr ⟨e, entry, cell⟩
  rw [State.withdrawMoveOf, found]

theorem State.withdrawMoveOf_none {i : Nat} (none : ∀ e, s.entry? i = some e → e.cell? = Option.none) :
    s.withdrawMoveOf i = s := by
  have absent : (s.entry? i).bind Entry.cell? = Option.none := Option.bind_eq_none_iff.mpr none
  rw [State.withdrawMoveOf, absent]

theorem exec_fallbackExpiry_due {o : OutRecord} {e : Entry} {target : Nat} {m : Mark} {c : Cell} {n : Nat}
    (record : s.outRecord? r.val = some o) (phase : o.phase = .fallback target m c n) (last : n ≤ 1)
    (entry : s.entry? o.entry = some e) :
    exec (.fallbackExpiry r) s = .next (s.loseHandover r.val o.entry e target .noConfirm) := by
  show execFallbackExpiry r s = _
  simp only [execFallbackExpiry, State.expireFallback, record, phase, entry, last, if_true]

theorem exec_fallbackExpiry_early
    (early : ∀ o t m c n, s.outRecord? r.val = some o → o.phase = .fallback t m c n → 2 ≤ n) :
    exec (.fallbackExpiry r) s = .next s := by
  refine congrArg Host.Outcome.next ?_
  cases record : s.outRecord? r.val with
  | none => rfl
  | some o =>
    cases phase : o.phase with
    | fallback t m c n =>
      have := early o t m c n record phase
      simp only [phase, show ¬n ≤ 1 by omega, if_false]
    | seeking | asking | switching => simp only [phase]

/-- R141, R144: what a lost handover does, for a LEAVING entry. -/
theorem State.loseHandover_leaving {i : Nat} {e : Entry} {c : Cell} {tag : Tag} {k : Link} (phase : e.phase = .leaving c tag k)
    (q target : Nat) (reason : Reason) : s.loseHandover q i e target reason =
      ((((((s.freeSlot c.slot).post .callLost e.handset target tag reason).count .callsLost).freeEntry i).setOut q
        none).drainTest) := by
  simp only [State.loseHandover, State.freeBearer, State.callLost, Entry.cell?, Entry.tag, phase]

/-! ### Inbound records -/

theorem exec_switchMarkDueInbound_due {o : InRecord} (record : s.inRecord? r.val = some o) (phase : o.phase = .reserved)
    (due : s.tb.due o.switchMark = true) : exec (.switchMarkDueInbound r) s = .next
      (s.setIn r.val (some { o with phase := .awaiting s.sc.config.arrivalWindow })) := by
  show execSwitchMarkDueInbound r s = _
  simp only [execSwitchMarkDueInbound, State.startAwaiting, record, phase, due, if_true]

theorem exec_switchMarkDueInbound_early
    (early : ∀ o, s.inRecord? r.val = some o → o.phase = .reserved → s.tb.due o.switchMark = false) :
    exec (.switchMarkDueInbound r) s = .next s := by
  refine congrArg Host.Outcome.next ?_
  cases record : s.inRecord? r.val with
  | none => rfl
  | some o =>
    cases phase : o.phase with
    | reserved => simp only [phase, early o record phase, Bool.false_eq_true, if_false]
    | awaiting n => simp only [phase]

theorem exec_arrivalWindowExpiry_due {o : InRecord} {n : Nat} (record : s.inRecord? r.val = some o)
    (phase : o.phase = .awaiting n) (last : n ≤ 1) :
    exec (.arrivalWindowExpiry r) s = .next (s.missArrival r.val .timeout) := by
  show execArrivalWindowExpiry r s = _
  simp only [execArrivalWindowExpiry, State.expireArrival, record, phase, last, if_true]

theorem exec_arrivalWindowExpiry_early
    (early : ∀ o n, s.inRecord? r.val = some o → o.phase = .awaiting n → 2 ≤ n) :
    exec (.arrivalWindowExpiry r) s = .next s := by
  refine congrArg Host.Outcome.next ?_
  cases record : s.inRecord? r.val with
  | none => rfl
  | some o =>
    cases phase : o.phase with
    | awaiting n =>
      have := early o n record phase
      simp only [phase, show ¬n ≤ 1 by omega, if_false]
    | reserved => simp only [phase]

end

/-- Settles O20: each deadline of a handover record, as it falls due and before. -/
theorem handoverDeadlinesFallDue : Obligations.HandoverDeadlinesFallDue := by
  have due : ∀ {s : State} {m : Mark}, s.tb.known = true → m = s.tb.mark → s.tb.due m = true :=
    fun known at_ => (TimeBase.due_iff _ _).mpr ⟨known, at_⟩
  refine ⟨fun r o e m l s record phase known at_ entry => exec_replyByMarkDue_due record phase (due known at_) entry,
    fun r o e l target m n s record phase last entry => exec_takeTimeout_due record phase last entry,
    fun r o target m c s record phase known at_ => ?_,
    fun r o s record phase known at_ => exec_switchMarkDueInbound_due record phase (due known at_),
    fun r o e target m nc cell tag k n s record phase last entry leaving => ?_,
    fun r o e cell tag n s record phase last entry arriving => ?_,
    fun r s => ⟨exec_replyByMarkDue_early, exec_takeTimeout_early, exec_switchMarkDueOutbound_early,
      exec_fallbackExpiry_early, exec_switchMarkDueInbound_early, exec_arrivalWindowExpiry_early⟩⟩
  · have fall := exec_switchMarkDueOutbound_due record phase (due known at_)
    refine ⟨fun e old entry cell => ?_, fun none => ?_⟩
    · rw [fall, State.withdrawMoveOf_cell entry cell]
      rfl
    · rw [fall, State.withdrawMoveOf_none none]
  · rw [exec_fallbackExpiry_due record phase last entry, State.loseHandover_leaving leaving]
  · rw [exec_arrivalWindowExpiry_due record phase last, State.missArrival_arriving record entry arriving]

end Sys2Proof.Machine
end

section
/-! Filtered levels and the configuration stay in their ranges: for each operation that takes part in a command, that it keeps
LevelsInRange. The level filter, the starting value and the level of an overheard entry are all that set a level. -/
namespace Sys2Proof.Machine

variable {s t : State}

/-! ### What keeps the levels -/

/-- An operation that leaves configuration, Measurement Unit and attachment table as they are. -/
theorem State.LevelsInRange.same (g : s.LevelsInRange)
    (h : t.sc.config = s.sc.config ∧ t.mu = s.mu ∧ t.rc.table = s.rc.table) : t.LevelsInRange := by
  obtain ⟨config, mu, table⟩ := h
  exact {
    config := config ▸ g.config
    map := fun c => by simpa only [State.interference, mu] using g.map c
    overheard := mu ▸ g.overheard
    table := fun i e entry => g.table i e (by simpa only [State.entry?, table] using entry) }

/-- A collection of the Measurement Unit is written: no cell of the map and no overheard entry above the range. -/
theorem State.LevelsInRange.measurement (g : s.LevelsInRange) {m : Measurement}
    (map : ∀ c, State.interference { s with mu := m } c ≤ 1008) (overheard : ∀ o ∈ m.overheard, o.level ≤ 1008) :
    State.LevelsInRange { s with mu := m } where
  config := g.config
  map := map
  overheard := overheard
  table := g.table

/-- Service ends: nothing is held and nothing overheard; the map is kept. -/
theorem State.LevelsInRange.empty (config : ConfigRecord.InRange s.sc.config) (map : ∀ c, s.interference c ≤ 1008)
    (overheard : s.mu.overheard = []) (table : s.rc.table = Vector.replicate 64 none) : s.LevelsInRange where
  config := config
  map := map
  overheard := by simp [overheard]
  table i e entry := by
    rw [State.entry?, table] at entry
    exact absurd (entry.symm.trans (allFree_replicate 64 i)) (by simp)

theorem State.LevelsInRange.setEntry (g : s.LevelsInRange) {i : Nat} {x : Option Entry}
    (level : ∀ e, x = some e → e.level ≤ 1008) : (s.setEntry i x).LevelsInRange where
  config := g.config
  map := g.map
  overheard := g.overheard
  table j e entry := by
    rw [State.entry?_setEntry] at entry
    split at entry
    · exact level e entry
    · exact g.table j e entry

/-- An entry is rewritten with its own level. -/
theorem State.LevelsInRange.rewrite (g : s.LevelsInRange) {i j : Nat} {e f : Entry} (entry : s.entry? i = some e)
    (level : f.level = e.level) : (s.setEntry j (some f)).LevelsInRange :=
  g.setEntry fun x h => by
    obtain rfl := Option.some.inj h
    exact level ▸ g.table i e entry

theorem State.LevelsInRange.modifyEntry (g : s.LevelsInRange) {i : Nat} {f : Entry → Entry}
    (level : ∀ e : Entry, e.level ≤ 1008 → (f e).level ≤ 1008) :
    (s.modifyEntry i f).LevelsInRange := by
  unfold State.modifyEntry
  split
  · rename_i e entry
    exact g.setEntry fun x h => by
      obtain rfl := Option.some.inj h
      exact level e (g.table i e entry)
  · exact g

theorem State.LevelsInRange.foldl {α : Type} {f : State → α → State}
    (h : ∀ (s : State) (a : α), s.LevelsInRange → (f s a).LevelsInRange) {l : List α} (g : s.LevelsInRange) :
    (l.foldl f s).LevelsInRange := by
  induction l generalizing s with
  | nil => exact g
  | cons a l ih => exact ih (h s a g)

@[simp] theorem Entry.enterOutcome_level (e : Entry) (sync check : Bool) : (e.enterOutcome sync check).level = e.level := by
  unfold Entry.enterOutcome
  split <;> rfl

section
variable (g : s.LevelsInRange) {i r n : Nat} {e : Entry} {h : Handset} {tag : Tag} {reason : Reason} {k : EventKind} {j : Tally}
include g

/-! ### Shared operations -/

theorem State.LevelsInRange.post : (s.post k h n tag reason).LevelsInRange := g.same (by simp)
theorem State.LevelsInRange.count : (s.count j).LevelsInRange := g.same (by simp)
theorem State.LevelsInRange.callLost : (s.callLost e n reason).LevelsInRange := g.same (by simp)
theorem State.LevelsInRange.freeBearer : (s.freeBearer e).LevelsInRange := g.same (by simp)
theorem State.LevelsInRange.releaseCall : (s.releaseCall i e).LevelsInRange := g.same (by simp)
theorem State.LevelsInRange.dropSetup : (s.dropSetup i).LevelsInRange := g.same (by simp)
theorem State.LevelsInRange.moveCursor {c : Cell} : (s.moveCursor c).LevelsInRange := g.same (by simp)
theorem State.LevelsInRange.removePage : (s.removePage h).LevelsInRange := g.same (by simp)
theorem State.LevelsInRange.pageFails : (s.pageFails h reason).LevelsInRange := g.same (by simp)
theorem State.LevelsInRange.setOut {o : Option OutRecord} : (s.setOut r o).LevelsInRange := g.same (by simp)
theorem State.LevelsInRange.setIn {o : Option InRecord} : (s.setIn r o).LevelsInRange := g.same (by simp)
theorem State.LevelsInRange.setFind {f : Option FindRecord} : (s.setFind r f).LevelsInRange := g.same ⟨rfl, rfl, rfl⟩
theorem State.LevelsInRange.addSetup : (s.addSetup i).LevelsInRange := g.same (by simp)
theorem State.LevelsInRange.advanceTag : s.advanceTag.LevelsInRange := g.same ⟨rfl, rfl, rfl⟩
theorem State.LevelsInRange.writeSlot {x : SlotEntry} : (s.writeSlot n x).LevelsInRange := g.same (by simp)
theorem State.LevelsInRange.commit {x : SlotEntry} : (s.commit n x).LevelsInRange := g.same (by simp)
theorem State.LevelsInRange.requestChange {c : PlanChange} : (s.requestChange c).LevelsInRange := g.same (by simp)
theorem State.LevelsInRange.admitChange {c : PlanChange} : (s.admitChange c).LevelsInRange := g.same (by simp)
theorem State.LevelsInRange.setMove {m : Move} : (s.setMove m).LevelsInRange := g.same (by simp)
theorem State.LevelsInRange.withdrawMove : (s.withdrawMove n).LevelsInRange := g.same (by simp)
theorem State.LevelsInRange.restoreSlot : (s.restoreSlot n h).LevelsInRange := g.same (by simp)
theorem State.LevelsInRange.offer {m : Notice} : (s.offer m).LevelsInRange := g.same (by simp)
theorem State.LevelsInRange.offerBeacon {m : Downlink} : (s.offerBeacon m).LevelsInRange := g.same (by simp)
theorem State.LevelsInRange.grant : (s.grant h).LevelsInRange := g.same (by simp)
theorem State.LevelsInRange.denyAttach {d : DenyReason} : (s.denyAttach h d).LevelsInRange := g.same (by simp)
theorem State.LevelsInRange.denyCall {d : DenyReason} : (s.denyCall h d).LevelsInRange := g.same (by simp)
theorem State.LevelsInRange.respond {a : Response} : (s.respond a).LevelsInRange := g.same ⟨rfl, rfl, rfl⟩
theorem State.LevelsInRange.answer {b : Byte} {c : ResponseCode} : (s.answer b c).LevelsInRange := g.respond

theorem State.LevelsInRange.toIdle : (s.toIdle i).LevelsInRange := g.modifyEntry fun _ h => by exact h

theorem State.LevelsInRange.freeEntry : (s.freeEntry i).LevelsInRange := by
  unfold State.freeEntry
  split
  · exact g.removePage.setEntry (by simp)
  · exact g

theorem State.LevelsInRange.offerClaim : (s.offerClaim i).LevelsInRange := by
  unfold State.offerClaim
  split
  · exact g.offer.modifyEntry fun _ h => by exact h
  · exact g

theorem State.LevelsInRange.readmitFrom {l : List Nat} : (readmitFrom l s).LevelsInRange := by
  induction l generalizing s with
  | nil => exact g
  | cons i l ih =>
    unfold Machine.readmitFrom
    split
    · split
      · split
        · exact ih g.offerClaim
        · exact g
      · exact ih g
    · exact ih g

theorem State.LevelsInRange.occupancyFell : s.occupancyFell.LevelsInRange := by
  have fell : State.LevelsInRange { s with bus := { s.bus with mode := modeAfterFall s.bus.mode s.occupancy } } :=
    g.same ⟨rfl, rfl, rfl⟩
  exact fell.readmitFrom

theorem State.LevelsInRange.completeDrain : (s.completeDrain reason).LevelsInRange := by
  rw [State.completeDrain_eq]
  exact .empty g.config g.map rfl rfl

theorem State.LevelsInRange.drainTest : s.drainTest.LevelsInRange := by
  unfold State.drainTest
  split
  · exact g.completeDrain
  · exact g

theorem State.LevelsInRange.becomesHeld : (s.becomesHeld h).LevelsInRange :=
  g.measurement g.map fun o mem => g.overheard o (List.mem_filter.mp mem).1

theorem State.LevelsInRange.endListensFor : (s.endListensFor h).LevelsInRange := g.measurement g.map g.overheard

theorem State.LevelsInRange.registerListen {l : ListenRequest} : (s.registerListen l).LevelsInRange := by
  unfold State.registerListen
  split
  · exact g
  · exact g.measurement g.map g.overheard

/-! ### What sets a level: the filter, the starting value, an overheard entry -/

/-- R37: a step of the configured shift. -/
theorem State.LevelsInRange.filterStep_le {f l : Nat} (hf : f ≤ 1008) (hl : l ≤ 63) :
    filterStep f l s.sc.config.filterShift ≤ 1008 :=
  Machine.filterStep_le _ _ _ g.config.filterShift.1 g.config.filterShift.2 hf hl

/-- R54: a listen report feeds one cell. -/
theorem State.LevelsInRange.feedMap {c : Cell} {l : Nat} (hl : l ≤ 63) : (s.feedMap c l).LevelsInRange := by
  refine g.measurement (fun d => ?_) g.overheard
  have old := g.map d
  have new := Machine.filterStep_le (s.interference c) l 2 (by decide) (by decide) (g.map c) hl
  simp only [State.interference, Vector.getElem?_setIfInBounds] at old ⊢
  split
  · split
    · exact new
    · exact le_refl _
  · exact old

/-- R58, R59: a heard entry steps or starts. -/
theorem State.LevelsInRange.heardEntry {c : Cell} {l : Nat} (hl : l ≤ 63) : (s.heardEntry h l c).level ≤ 1008 := by
  unfold State.heardEntry
  split
  · rename_i o found
    exact g.filterStep_le (g.overheard o (State.overheard?_some found).1) hl
  · exact filterStart_le l hl

theorem State.LevelsInRange.recordHearing {c : Cell} {l : Nat} (hl : l ≤ 63) : (s.recordHearing h l c).LevelsInRange := by
  refine g.measurement g.map fun o mem => ?_
  rcases List.mem_cons.mp (List.mem_of_mem_take mem) with rfl | old
  · exact g.heardEntry hl
  · exact g.overheard o (List.mem_filter.mp old).1

/-- R39: a bearer or held report steps the entry's level. -/
theorem State.LevelsInRange.measure {l : LinkReport} (hl : l.level ≤ 63) : (s.measure i l).LevelsInRange :=
  g.modifyEntry fun e he => by
    rw [Entry.measure, Entry.enterOutcome_level]
    exact g.filterStep_le he hl

/-- R40, R79: a beacon uplink report steps the entry's level. -/
theorem State.LevelsInRange.hearHeld {l : Nat} (hl : l ≤ 63) : (s.hearHeld i l).LevelsInRange :=
  g.modifyEntry fun _ he => g.filterStep_le he hl

/-! ### The Handover Engine (chapters 3, 8 and 9) -/

theorem State.LevelsInRange.failEntry : (s.failEntry i reason n).LevelsInRange := by
  unfold State.failEntry
  split
  · exact g.post.count.modifyEntry fun _ h => by exact h
  · exact g

theorem State.LevelsInRange.failAttempt : (s.failAttempt r reason n).LevelsInRange := by
  unfold State.failAttempt
  split
  · exact g.failEntry.setOut
  · exact g

theorem State.LevelsInRange.disarmFor {k : FireKind} : (s.disarmFor i k).LevelsInRange := by
  unfold State.disarmFor
  split
  · exact g.modifyEntry fun _ h => by exact h
  all_goals exact g

theorem State.LevelsInRange.fire {k : FireKind} : (s.fire i e k r).LevelsInRange := by
  unfold State.fire
  dsimp only
  split
  · exact g.disarmFor.offer.same ⟨rfl, rfl, rfl⟩
  · exact g.disarmFor.failEntry

theorem State.LevelsInRange.trigger : (s.trigger i).LevelsInRange := by
  unfold State.trigger
  split
  · split
    · exact g.fire
    all_goals exact g
  · exact g

theorem State.LevelsInRange.testTrigger : (s.testTrigger i).LevelsInRange := by
  refine State.LevelsInRange.trigger (g.modifyEntry fun e he => ?_)
  unfold rearmed
  split <;> exact he

theorem State.LevelsInRange.askFrom {o : OutRecord} {l : List Candidate} : (askFrom r o e l reason n s).LevelsInRange := by
  induction l generalizing reason n with
  | nil => exact g.failAttempt
  | cons c l ih =>
    unfold Machine.askFrom
    split
    · exact g.offer.setOut
    · exact ih

theorem State.LevelsInRange.closeWindow : (s.closeWindow r).LevelsInRange := by
  unfold State.closeWindow
  split
  · split
    · exact g.askFrom
    all_goals exact g
  · exact g

theorem State.LevelsInRange.nextCandidate : (s.nextCandidate r reason).LevelsInRange := by
  unfold State.nextCandidate
  split
  · split
    · exact g.askFrom
    all_goals exact g
  · exact g

theorem State.LevelsInRange.takeDecline {m : Notice} {seek : BitVec 8} {d : DeclineReason} :
    (s.takeDecline m seek d).LevelsInRange := by
  unfold State.takeDecline
  split
  · split
    · split
      · exact g.nextCandidate
      · exact g
    all_goals exact g
  · exact g

/-- R135: a TAKE that proceeds rewrites the entry with its own level. -/
theorem State.LevelsInRange.actOnTake {o : OutRecord} {m : Mark} {c : Cell} : (s.actOnTake r o n m c).LevelsInRange := by
  unfold State.actOnTake
  split
  · rename_i e entry
    split
    · split
      · exact (g.admitChange.rewrite (by simpa using entry) (by rfl)).setOut.setMove
      · exact g.failAttempt
    all_goals exact g
  · exact g

theorem State.LevelsInRange.takeTake {m : Notice} {seek : BitVec 8} {c : Cell} : (s.takeTake m seek c).LevelsInRange := by
  unfold State.takeTake
  split
  · split
    · split
      · exact g.actOnTake
      · exact g
    all_goals exact g
  · exact g

theorem State.LevelsInRange.startFallback : (s.startFallback r).LevelsInRange := by
  unfold State.startFallback
  split
  · split
    · exact State.LevelsInRange.setOut (g.same (by simp))
    all_goals exact g
  · exact g

theorem State.LevelsInRange.returnToOld {o : OutRecord} (entry : s.entry? o.entry = some e) :
    (s.returnToOld r o e n).LevelsInRange := by
  unfold State.returnToOld
  split
  · exact (g.restoreSlot.rewrite (by simpa using entry) (by rfl)).failAttempt
  all_goals exact g

theorem State.LevelsInRange.loseHandover : (s.loseHandover r i e n reason).LevelsInRange :=
  g.freeBearer.callLost.freeEntry.setOut.drainTest

theorem State.LevelsInRange.expireFallback : (s.expireFallback r).LevelsInRange := by
  unfold State.expireFallback
  split
  · split
    · exact g.loseHandover
    all_goals exact g
  · exact g

theorem State.LevelsInRange.stayOnOld (entry : s.entry? i = some e) : (s.stayOnOld i e).LevelsInRange := by
  unfold State.stayOnOld
  split
  · exact g.withdrawMove.rewrite (by simpa using entry) (by rfl)
  all_goals exact g

theorem State.LevelsInRange.releaseOut : (s.releaseOut r).LevelsInRange := by
  unfold State.releaseOut
  split
  · split
    · exact g.failAttempt
    · exact g.failAttempt
    · rename_i entry _
      exact (g.stayOnOld entry).failAttempt
    · exact g.loseHandover
    · exact g.setOut
  · exact g

theorem State.LevelsInRange.takeSeek {m : Notice} {seek : BitVec 8} {c : Cell} : (s.takeSeek m seek c).LevelsInRange := by
  unfold State.takeSeek
  split
  · split
    · exact g.same (by simp)
    · exact g.registerListen
  · exact g

/-- R57, R66: a hearing steps or starts one overheard entry; its answers are offers. -/
theorem State.LevelsInRange.hearing {c : Cell} {l : Nat} (hl : l ≤ 63) : (s.hearing h l c).LevelsInRange := by
  unfold State.hearing
  split
  · exact g
  · exact (g.recordHearing hl).endListensFor.foldl fun s l g => g.same (by simp)

/-- R154: the entry of a reservation has the level of the overheard entry. -/
theorem State.LevelsInRange.reserve {m : Notice} {seek : BitVec 8} {c : Cell} {l : Nat} (hl : l ≤ 1008) :
    (s.reserve m seek tag c l i r).LevelsInRange := by
  have entered : ((s.becomesHeld m.handset).setEntry i (some (arrivingEntry m tag c l))).LevelsInRange :=
    g.becomesHeld.setEntry fun e h => Option.some.inj h ▸ hl
  exact entered.commit.requestChange.setIn

theorem State.LevelsInRange.acceptTransfer {m : Notice} {seek : BitVec 8} {l : Nat} (hl : l ≤ 1008) :
    (s.acceptTransfer m seek tag l i r).LevelsInRange := by
  unfold State.acceptTransfer
  split
  · exact g.offer
  · split
    · exact g.moveCursor.offer.reserve hl
    · exact g.moveCursor

theorem State.LevelsInRange.takeTransfer {m : Notice} {seek : BitVec 8} : (s.takeTransfer m seek tag).LevelsInRange := by
  unfold State.takeTransfer
  split
  · exact g.offer
  · split
    · rename_i o _ _ found _ _
      exact g.acceptTransfer (g.overheard o (State.overheard?_some found).1)
    all_goals exact g

theorem State.LevelsInRange.startAwaiting : (s.startAwaiting r).LevelsInRange := by
  unfold State.startAwaiting
  split
  · split
    · exact g.setIn
    · exact g
  · exact g

theorem State.LevelsInRange.arrive {o : InRecord} {c : Cell} (entry : s.entry? i = some e) :
    (s.arrive r i o e c tag).LevelsInRange := by
  unfold State.arrive
  exact (g.rewrite entry (by rfl)).offerClaim.post.count.setIn

theorem State.LevelsInRange.missArrival : (s.missArrival r reason).LevelsInRange := by
  unfold State.missArrival
  split
  · split
    · exact g.freeBearer.freeEntry.post.count.setIn.drainTest
    · exact g.setIn
  · exact g

theorem State.LevelsInRange.expireArrival : (s.expireArrival r).LevelsInRange := by
  unfold State.expireArrival
  split
  · split
    · exact g.missArrival
    · exact g
  · exact g

/-! ### Calls (chapter 6) -/

/-- A selection moves the allocation cursor and writes a slot. -/
theorem State.LevelsInRange.selectCommit : (selectCommit h n s).2.LevelsInRange := by
  induction n generalizing s with
  | zero => exact g
  | succ n ih =>
    unfold Machine.selectCommit
    split
    · exact g
    · split
      · exact g.moveCursor.writeSlot
      · exact ih g.moveCursor

theorem State.LevelsInRange.beginSetup {c : Cell} : (s.beginSetup i h c tag).LevelsInRange := by
  unfold State.beginSetup
  exact (g.modifyEntry fun _ h => by exact h).addSetup.offerBeacon

theorem State.LevelsInRange.setUpCall : (s.setUpCall i h).LevelsInRange := by
  have selected := g.selectCommit (h := h) (n := 15)
  unfold State.setUpCall
  split
  · rename_i eq
    rw [eq] at selected
    exact selected.denyCall
  · rename_i eq
    rw [eq] at selected
    split
    · exact selected.removePage.beginSetup
    · exact selected.advanceTag.beginSetup

theorem State.LevelsInRange.setUpReply : (s.setUpReply i h tag).LevelsInRange := by
  have selected := g.selectCommit (h := h) (n := 15)
  unfold State.setUpReply
  split
  · rename_i eq
    rw [eq] at selected
    exact selected.denyCall
  · rename_i eq
    rw [eq] at selected
    exact selected.removePage.beginSetup

theorem State.LevelsInRange.takeCall : (s.takeCall h).LevelsInRange := by
  unfold State.takeCall
  split
  · exact g.denyCall.pageFails
  · split
    · exact g.denyCall
    · split
      · exact g.denyCall
      · exact g.setUpCall

theorem State.LevelsInRange.takePageReply : (s.takePageReply h tag).LevelsInRange := by
  unfold State.takePageReply
  split
  · exact g.denyCall.pageFails
  · split
    · exact g.denyCall
    · split
      · exact g.denyCall
      · split
        · exact g.denyCall
        · split
          · exact g
          · exact g.setUpReply

theorem State.LevelsInRange.clearTheCall : (s.clearTheCall i e reason).LevelsInRange :=
  g.releaseCall.toIdle.post.drainTest

theorem State.LevelsInRange.setupFails {b : Bool} : (s.setupFails i e b).LevelsInRange :=
  g.freeBearer.toIdle.dropSetup.post.drainTest

theorem State.LevelsInRange.callTakesReport {l : LinkReport} : (s.callTakesReport i l).LevelsInRange := by
  unfold State.callTakesReport
  split
  · rename_i e entry
    split
    · split
      · split
        · exact g.clearTheCall
        · exact (g.rewrite entry (by rfl)).dropSetup.post.count
      · exact g
    · split
      · exact g.clearTheCall
      · split
        · exact g.releaseCall.toIdle.callLost.drainTest
        · exact g
    · split
      · exact g.clearTheCall
      · exact g
    all_goals exact g
  · exact g

/-! ### Registration (chapter 5) -/

theorem State.LevelsInRange.attachNew {epoch : BitVec 8} {l : Nat} (hl : l ≤ 63) : (s.attachNew h epoch l).LevelsInRange := by
  unfold State.attachNew
  split
  · refine State.LevelsInRange.post (State.LevelsInRange.offerClaim (.grant (.becomesHeld (g.setEntry ?_))))
    rintro e ⟨⟩
    exact filterStart_le l hl
  · exact g.denyAttach

theorem State.LevelsInRange.endTenure : (s.endTenure i e).LevelsInRange := by
  unfold State.endTenure
  split
  · exact g.releaseCall.callLost
  · exact g

theorem State.LevelsInRange.newTenure {epoch : BitVec 8} {l : Nat} (hl : l ≤ 63) :
    (s.newTenure i e epoch l).LevelsInRange :=
  (g.endTenure.removePage.modifyEntry fun _ _ => filterStart_le l hl).grant.offerClaim.post

theorem State.LevelsInRange.takeAttach {epoch : BitVec 8} {l : Nat} (hl : l ≤ 63) :
    (s.takeAttach h epoch l).LevelsInRange := by
  unfold State.takeAttach
  split
  · exact g.denyAttach
  · split
    · exact g.attachNew hl
    · split
      · exact g.grant
      · split
        · exact g.newTenure hl
        · exact g.denyAttach

theorem State.LevelsInRange.hearUplink {l : Nat} (hl : l ≤ 63) : (s.hearUplink h l).LevelsInRange := by
  unfold State.hearUplink
  split
  · exact g.hearHeld hl
  · exact g

theorem State.LevelsInRange.takePresence {l : Nat} (hl : l ≤ 63) : (s.takePresence h l).LevelsInRange := by
  unfold State.takePresence
  split
  · exact g.hearHeld hl
  · exact g.denyAttach

theorem State.LevelsInRange.expireIdle : (s.expireIdle i e).LevelsInRange := g.freeEntry.post

theorem State.LevelsInRange.supersede {m : Notice} : (s.supersede m).LevelsInRange := by
  unfold State.supersede
  split
  · exact g
  · split
    · unfold State.supersedeEntry
      split
      · exact g.releaseCall.freeEntry.post.drainTest
      · exact g.freeEntry.post
    · exact g.post
    · exact g.post
    · unfold State.correct
      split
      case h_4 | h_5 => exact g
      all_goals exact g.offerClaim

theorem State.LevelsInRange.takeClaim {m : Notice} : (s.takeClaim m).LevelsInRange := by
  unfold State.takeClaim
  split
  · exact g.freeBearer.post.count.freeEntry.setOut.drainTest
  · exact g.supersede

theorem State.LevelsInRange.takeAnswer {m : Notice} {number : BitVec 8} {b : Bool} :
    (s.takeAnswer m number b).LevelsInRange := by
  unfold State.takeAnswer
  split
  · split
    · split
      · exact g.setFind
      · exact g
    · exact g
  · exact g

theorem State.LevelsInRange.expireFind {f : FindRecord} : (s.expireFind r f).LevelsInRange := by
  unfold State.expireFind State.reportFind
  split
  · exact g.setFind.post
  · split <;> exact g.setFind.post

end
end Sys2Proof.Machine
end

section
/-! Burst reports, notices, strobes and the host's commands keep LevelsInRange, and with them every step. -/
namespace Sys2Proof.Machine

variable {s t : State}

theorem Burst.ofWord_level (w : BurstWord) : (Burst.ofWord w).level ≤ 63 := Nat.le_of_lt_succ (w.extractLsb' 48 6).isLt

theorem Burst.forHandset_level {b : Burst} (hb : b.level ≤ 63) (h : Handset) : (b.forHandset h).level ≤ 63 := by
  unfold Burst.forHandset
  dsimp only
  split
  · exact hb
  · exact Nat.zero_le _

/-- R55: every cell of the map after a reset is at its worst, which is in range. -/
theorem worstMap_le (c : Cell) : (Measurement.worstMap[mapPlace c]?).getD Config.worstCell ≤ 1008 :=
  (worstMap_getD _).le

theorem State.LevelsInRange.ite {p : Prop} [Decidable p] {u : State} (ht : t.LevelsInRange) (hu : u.LevelsInRange) :
    (if p then t else u).LevelsInRange := by
  split
  · exact ht
  · exact hu

section
variable (g : s.LevelsInRange) {i r n : Nat} {e : Entry} {h : Handset} {tag : Tag} {reason : Reason} {b : Burst} {m : Notice}
include g

/-! ### Burst reports (chapter 2) -/

theorem State.LevelsInRange.markReported : (s.markReported n).LevelsInRange := g.same (by simp)

theorem State.LevelsInRange.listenBurst (hb : b.level ≤ 63) : (s.listenBurst b).LevelsInRange := by
  unfold State.listenBurst State.routeListen State.takeListen
  split
  · split
    · split
      · dsimp only
        split
        · exact (g.markReported.feedMap hb).hearing hb
        · exact g.markReported.feedMap hb
      · exact g.markReported
    · exact g
  all_goals exact g

theorem State.LevelsInRange.takeUplink (hb : b.level ≤ 63) {u : Uplink} : (s.takeUplink b h u).LevelsInRange := by
  cases u with
  | attach epoch target => exact .ite (g.takeAttach hb) (g.hearing hb)
  | presence => exact g.takePresence hb
  | call => exact (g.hearUplink hb).takeCall
  | pageReply tag => exact (g.hearUplink hb).takePageReply

theorem State.LevelsInRange.routeUplink (hb : b.level ≤ 63) : (s.routeUplink b).LevelsInRange := by
  unfold State.routeUplink
  split
  · split
    · exact g.takeUplink hb
    all_goals exact g
  · exact g

theorem State.LevelsInRange.beaconBurst (hb : b.level ≤ 63) {k : UplinkKind} : (s.beaconBurst k b).LevelsInRange := by
  unfold State.beaconBurst
  split
  · exact .ite (g.markReported.routeUplink hb) g
  all_goals exact g

theorem State.LevelsInRange.tryArrival {c : Cell} (entry : s.entry? i = some e) : (s.tryArrival i e c tag).LevelsInRange := by
  unfold State.tryArrival
  split
  · split
    · split
      · exact g.arrive entry
      · exact g
    · exact g
  · exact g

theorem State.LevelsInRange.handoverTakesReport {l : LinkReport} : (s.handoverTakesReport i l).LevelsInRange := by
  unfold State.handoverTakesReport
  split
  · rename_i entry
    split
    · exact g.testTrigger
    · exact .ite (g.tryArrival entry) g
    all_goals exact g
  · exact g

theorem State.LevelsInRange.bearerBurst (hb : b.level ≤ 63) : (s.bearerBurst b).LevelsInRange := by
  unfold State.bearerBurst State.bearerFor
  split
  · split
    · split
      · split
        · exact (g.markReported.measure (Burst.forHandset_level hb _)).callTakesReport.handoverTakesReport
        · exact g.markReported
      · exact g.markReported
    · exact g
  all_goals exact g

theorem State.LevelsInRange.heldTakesReport {l : LinkReport} : (s.heldTakesReport i l).LevelsInRange := by
  unfold State.heldTakesReport
  split
  · rename_i e r entry found
    obtain ⟨p, hp, rfl⟩ := State.outOf_some found
    split
    · rename_i o record
      obtain rfl := Option.some.inj (record.symm.trans hp)
      split
      · exact .ite (.ite g.clearTheCall (g.returnToOld entry)) g
      all_goals exact g
    · exact g
  all_goals exact g

theorem State.LevelsInRange.heldBurst (hb : b.level ≤ 63) : (s.heldBurst b).LevelsInRange := by
  unfold State.heldBurst State.heldFor
  split
  · split
    · split
      · split
        · exact (g.markReported.measure (Burst.forHandset_level hb _)).heldTakesReport
        · exact g.markReported
      · exact g.markReported
    · exact g
  all_goals exact g

/-! ### The bus (chapter 7) -/

theorem State.LevelsInRange.bus {x : Bus} : State.LevelsInRange { s with bus := x } := g.same ⟨rfl, rfl, rfl⟩

theorem State.LevelsInRange.loseContention : s.loseContention.LevelsInRange := by
  unfold State.loseContention
  exact .ite (g.bus.count.occupancyFell) g.bus.count

theorem State.LevelsInRange.finishNotice : s.finishNotice.LevelsInRange := by
  unfold State.finishNotice
  exact g.bus.count.occupancyFell

theorem State.LevelsInRange.receive : (s.receive m).LevelsInRange := g.same (by simp)

theorem State.LevelsInRange.hearNotice {w : NoticeWord} : (s.hearNotice n w).LevelsInRange := by
  unfold State.hearNotice State.hearWord State.heardAnother
  split
  · exact g
  · split
    · exact g
    · split
      · exact g.count
      · split
        · exact g.count
        · split
          · exact g.count
          · split
            · exact g.bus.receive
            · exact g.bus.count

/-! ### Received notices (chapter 7) -/

/-- R124, R125: a notice is handed on, kept to supersession or passed by, and then leaves its queue. -/
theorem State.LevelsInRange.dispatch (ht : t.LevelsInRange) : (s.dispatch m t).LevelsInRange :=
  State.LevelsInRange.bus (.ite ht (.ite (.ite g.supersede g) g))

theorem State.LevelsInRange.execTakeReceived (a : execTakeReceived s = .next t) : t.LevelsInRange := by
  obtain rfl := next_inj a
  split
  · split
    · exact g.dispatch (.ite g.takeTake g)
    all_goals exact g
  · exact g

theorem State.LevelsInRange.execDeclineReceived (a : execDeclineReceived s = .next t) : t.LevelsInRange := by
  obtain rfl := next_inj a
  split
  · split
    · exact g.dispatch (.ite g.takeDecline g)
    all_goals exact g
  · exact g

theorem State.LevelsInRange.execOfferReceived (a : execOfferReceived s = .next t) : t.LevelsInRange := by
  obtain rfl := next_inj a
  split
  · split
    · exact g.dispatch (.ite (g.same (by simp)) g)
    all_goals exact g
  · exact g

theorem State.LevelsInRange.execClaimReceived (a : execClaimReceived s = .next t) : t.LevelsInRange := by
  obtain rfl := next_inj a
  split
  · split
    · exact g.dispatch g.takeClaim
    all_goals exact g
  · exact g

theorem State.LevelsInRange.execTransferReceived (a : execTransferReceived s = .next t) : t.LevelsInRange := by
  obtain rfl := next_inj a
  split
  · split
    · exact g.dispatch (.ite g.takeTransfer g.supersede)
    all_goals exact g
  · exact g

theorem State.LevelsInRange.execSeekReceived (a : execSeekReceived s = .next t) : t.LevelsInRange := by
  obtain rfl := next_inj a
  split
  · split
    · exact g.dispatch g.supersede.takeSeek
    all_goals exact g
  · exact g

theorem State.LevelsInRange.execHereReceived (a : execHereReceived s = .next t) : t.LevelsInRange := by
  obtain rfl := next_inj a
  split
  · split
    · exact g.dispatch (.ite g.supersede.takeAnswer g.supersede)
    all_goals exact g
  · exact g

theorem State.LevelsInRange.execFindReceived (a : execFindReceived s = .next t) : t.LevelsInRange := by
  obtain rfl := next_inj a
  split
  · split
    · exact g.dispatch (g.same (by simp))
    all_goals exact g
  · exact g

/-! ### The pieces of a strobe's work (chapter 1) -/

theorem State.LevelsInRange.station {c : StationControl} (config : c.config = s.sc.config) :
    State.LevelsInRange { s with sc := c } := g.same ⟨config, rfl, rfl⟩

theorem State.LevelsInRange.becomeActive : s.becomeActive.LevelsInRange := g.writeSlot.post.station rfl

theorem State.LevelsInRange.quietReachesZero : s.quietReachesZero.LevelsInRange := .ite g.becomeActive (g.station rfl)

theorem State.LevelsInRange.holdoffStrobe : (s.holdoffStrobe i).LevelsInRange :=
  g.modifyEntry fun e he => by
    unfold countHoldoff
    split <;> exact he

theorem State.LevelsInRange.measurementStrobe : s.measurementStrobe.LevelsInRange := by
  refine g.measurement g.map fun o mem => ?_
  obtain ⟨p, hp, rfl⟩ := List.mem_map.mp (List.mem_filter.mp mem).1
  exact g.overheard p hp

theorem State.LevelsInRange.silenceTick : (s.silenceTick i).LevelsInRange := by
  unfold State.silenceTick
  split
  · rename_i entry
    split
    · exact .ite g.expireIdle (g.rewrite entry (by rfl))
    all_goals exact g
  · exact g

theorem State.LevelsInRange.setupReachesZero {x : SetupRecord} : (s.setupReachesZero i x).LevelsInRange := by
  unfold State.setupReachesZero
  split
  · exact g.setupFails
  · exact g.dropSetup

theorem State.LevelsInRange.setupStrobe : (s.setupStrobe i).LevelsInRange := by
  unfold State.setupStrobe
  split
  · exact .ite g.setupReachesZero (g.same ⟨rfl, rfl, rfl⟩)
  · exact g

theorem State.LevelsInRange.pageStrobe : (s.pageStrobe h).LevelsInRange := by
  unfold State.pageStrobe
  split
  · exact .ite g.pageFails (g.same ⟨rfl, rfl, rfl⟩)
  · exact g

theorem State.LevelsInRange.findStrobe : (s.findStrobe r).LevelsInRange := by
  unfold State.findStrobe
  split
  · exact .ite g.expireFind g.setFind
  · exact g

theorem State.LevelsInRange.outStrobe : (s.outStrobe r).LevelsInRange := by
  unfold State.outStrobe
  split
  · split
    · exact .ite g.closeWindow g
    · exact .ite g.nextCandidate g.setOut
    · exact .ite g.startFallback g
    · exact .ite g.expireFallback g.setOut
  · exact g

theorem State.LevelsInRange.inStrobe : (s.inStrobe r).LevelsInRange := by
  unfold State.inStrobe
  split
  · split
    · exact .ite g.startAwaiting g
    · exact .ite g.expireArrival g.setIn
  · exact g

theorem State.LevelsInRange.quietStrobe : s.quietStrobe.LevelsInRange := by
  unfold State.quietStrobe
  split
  · split
    · exact .ite g.becomeActive g
    · exact g.quietReachesZero
    · exact g.station rfl
    · exact g
  · exact g

theorem State.LevelsInRange.drainTick : s.drainTick.LevelsInRange := by
  unfold State.drainTick
  split
  · split
    · exact g
    · exact g.completeDrain
    · exact g.station rfl
    · exact g
  · exact g

theorem State.LevelsInRange.doStrobeWork (w : StrobeWork) : (doStrobeWork s w).LevelsInRange := by
  cases w with
  | measurement => exact g.measurementStrobe
  | slotPlanner => exact g.same (t := s.plannerStrobe) (by simp)
  | silence i => exact .ite g.silenceTick g
  | setup i => exact g.setupStrobe
  | page h => exact g.pageStrobe
  | findRecord r => exact g.findStrobe
  | outbound r => exact g.outStrobe
  | inbound r => exact g.inStrobe
  | quietPeriod => exact g.quietStrobe
  | drainLimit => exact .ite g.drainTick g
  | occupancy => exact g.same (t := s.countBy _ _) (by simp)

theorem State.LevelsInRange.strobeReport {order : List StrobeWork} : (s.strobeReport order).LevelsInRange :=
  (g.foldl (f := fun t (i : Fin 64) => t.holdoffStrobe i.val) fun _ _ g => g.holdoffStrobe).foldl
    fun _ w g => g.doStrobeWork w

/-! ### A sync loss (chapter 1) -/

theorem State.LevelsInRange.timeBase {x : TimeBase} : State.LevelsInRange { s with tb := x } := g.same ⟨rfl, rfl, rfl⟩

theorem State.LevelsInRange.busLoss : s.busLoss.LevelsInRange := .ite g.bus g.bus.occupancyFell

theorem State.LevelsInRange.doLossWork (w : LossWork) : (doLossWork s w).LevelsInRange := by
  cases w with
  | slotPlanner => exact g.same ⟨rfl, rfl, rfl⟩
  | measurement => exact g.measurement g.map g.overheard
  | outbound r => exact g.releaseOut
  | inbound r => exact g.missArrival
  | bus => exact g.busLoss

theorem State.LevelsInRange.postWithMark {k : EventKind} {mark : Mark} :
    (s.postWithMark k h n tag reason mark).LevelsInRange := g.same (by simp)

theorem State.LevelsInRange.syncLoss {mark : Mark} {loss : List LossWork} : (s.syncLoss reason mark loss).LevelsInRange :=
  g.postWithMark.timeBase.foldl fun _ w g => g.doLossWork w

theorem State.LevelsInRange.regain : s.regain.LevelsInRange := g.timeBase.postWithMark

theorem State.LevelsInRange.takeEpoch {loss : List LossWork} : (s.takeEpoch loss).LevelsInRange :=
  .ite g.regain (.ite g.timeBase g.syncLoss.regain)

/-! ### The rows of strobes, sync losses and due marks -/

theorem State.LevelsInRange.execStrobeOverdue {loss : List LossWork} (a : execStrobeOverdue loss s = .next t) :
    t.LevelsInRange := by
  obtain rfl := next_inj a
  split
  · exact g
  · exact .ite g.timeBase.syncLoss g.timeBase

theorem State.LevelsInRange.execOverheardExpiry (a : execOverheardExpiry h s = .next t) : t.LevelsInRange := by
  obtain rfl := next_inj a
  split
  · exact .ite (g.measurement g.map fun o mem => g.overheard o (List.mem_filter.mp mem).1) g
  · exact g

theorem State.LevelsInRange.execHoldoffExpiry {k : Fin 64} (a : execHoldoffExpiry k s = .next t) : t.LevelsInRange := by
  obtain rfl := next_inj a
  exact g.modifyEntry fun e he => by split <;> exact he

theorem State.LevelsInRange.execIdleExpiry {k : Fin 64} (a : execIdleExpiry k s = .next t) : t.LevelsInRange := by
  obtain rfl := next_inj a
  split
  · split
    · exact .ite g.expireIdle g
    all_goals exact g
  · exact g

theorem State.LevelsInRange.execSetupCounterExpiry {k : Fin 64} (a : execSetupCounterExpiry k s = .next t) :
    t.LevelsInRange := by
  obtain rfl := next_inj a
  split
  · exact .ite g.setupReachesZero g
  · exact g

theorem State.LevelsInRange.execPageTimeout (a : execPageTimeout h s = .next t) : t.LevelsInRange := by
  obtain rfl := next_inj a
  split
  · exact .ite g.pageFails g
  · exact g

theorem State.LevelsInRange.execFindExpiry {k : Fin 4} (a : execFindExpiry k s = .next t) : t.LevelsInRange := by
  obtain rfl := next_inj a
  split
  · exact .ite g.expireFind g
  · exact g

theorem State.LevelsInRange.execReplyByMarkDue {k : Fin 4} (a : execReplyByMarkDue k s = .next t) : t.LevelsInRange := by
  obtain rfl := next_inj a
  split
  · split
    · exact .ite g.closeWindow g
    all_goals exact g
  · exact g

theorem State.LevelsInRange.execTakeTimeout {k : Fin 4} (a : execTakeTimeout k s = .next t) : t.LevelsInRange := by
  obtain rfl := next_inj a
  split
  · split
    · exact .ite g.nextCandidate g
    all_goals exact g
  · exact g

theorem State.LevelsInRange.execSwitchMarkDueOutbound {k : Fin 4} (a : execSwitchMarkDueOutbound k s = .next t) :
    t.LevelsInRange := by
  obtain rfl := next_inj a
  split
  · split
    · exact .ite g.startFallback g
    all_goals exact g
  · exact g

theorem State.LevelsInRange.execFallbackExpiry {k : Fin 4} (a : execFallbackExpiry k s = .next t) : t.LevelsInRange := by
  obtain rfl := next_inj a
  split
  · split
    · exact .ite g.expireFallback g
    all_goals exact g
  · exact g

theorem State.LevelsInRange.execSwitchMarkDueInbound {k : Fin 4} (a : execSwitchMarkDueInbound k s = .next t) :
    t.LevelsInRange := by
  obtain rfl := next_inj a
  split
  · split
    · exact .ite g.startAwaiting g
    all_goals exact g
  · exact g

theorem State.LevelsInRange.execArrivalWindowExpiry {k : Fin 4} (a : execArrivalWindowExpiry k s = .next t) :
    t.LevelsInRange := by
  obtain rfl := next_inj a
  split
  · split
    · exact .ite g.expireArrival g
    all_goals exact g
  · exact g

theorem State.LevelsInRange.execContentionLost {k : Fin 10} (a : execContentionLost k s = .next t) : t.LevelsInRange := by
  obtain rfl := next_inj a
  split
  · exact .ite g.loseContention g
  all_goals exact g

/-! ### The host's commands (chapters 6, 10 and 11) -/

/-- R167: a stored configuration is clamped. -/
theorem State.LevelsInRange.execConfigure {record : ConfigWord} (a : execConfigure record s = .next t) :
    t.LevelsInRange := by
  obtain rfl := next_inj a
  have stored : (s.storeConfig (configOfWord record)).LevelsInRange := { g with config := configOfWord_inRange record }
  exact .ite stored.answer g.answer

/-- R170, R55: joining, every cell of the map is at its worst. -/
theorem State.LevelsInRange.execJoin (a : execJoin s = .next t) : t.LevelsInRange := by
  obtain rfl := next_inj a
  have joined : s.joinSegment.LevelsInRange := .empty g.config worstMap_le rfl rfl
  split
  · exact g.respond
  · split
    · exact g.respond
    · exact joined.answer
  all_goals exact g.answer

theorem State.LevelsInRange.execLeave (a : execLeave s = .next t) : t.LevelsInRange := by
  obtain rfl := next_inj a
  have stopped : s.stopListening.LevelsInRange :=
    ((g.measurement (m := { s.mu with overheard := [], listens := [] }) g.map (by simp)).bus
      (x := s.bus.clear)).station rfl
  split
  · exact (g.station (by rfl)).drainTest.answer
  · exact stopped.answer
  all_goals exact g.answer

theorem State.LevelsInRange.execRestart (a : execRestart s = .next t) : t.LevelsInRange := by
  obtain rfl := next_inj a
  have restarted : s.restart.LevelsInRange := .empty g.config worstMap_le rfl rfl
  exact .ite g.answer restarted.answer

theorem State.LevelsInRange.execPage (a : execPage h tag s = .next t) : t.LevelsInRange := by
  obtain rfl := next_inj a
  have paged : (s.setPage h tag).LevelsInRange := by
    unfold State.setPage
    split <;> exact g.same ⟨rfl, rfl, rfl⟩
  split
  · exact g.answer
  · exact paged.answer

theorem State.LevelsInRange.clearByHost : (s.clearByHost i e).LevelsInRange := by
  unfold State.clearByHost
  split
  case h_1 | h_2 => exact g.clearTheCall.answer
  all_goals exact g.answer

theorem State.LevelsInRange.execClearCall (a : execClearCall h s = .next t) : t.LevelsInRange := by
  obtain rfl := next_inj a
  refine .ite g.answer (.ite g.answer ?_)
  split
  · exact g.answer
  · exact g.clearByHost

theorem State.LevelsInRange.startFind : (s.startFind h r).LevelsInRange := 
  (g.offer (m := s.findNotice h)).same ⟨rfl, rfl, rfl⟩

theorem State.LevelsInRange.execLocate (a : execLocate h s = .next t) : t.LevelsInRange := by
  obtain rfl := next_inj a
  refine .ite g.answer (.ite g.answer ?_)
  split
  · exact g.post.answer
  · refine .ite g.answer ?_
    unfold State.beginFind
    split
    · exact g.answer
    · exact .ite g.startFind.answer g.answer

theorem State.LevelsInRange.hostLink {x : HostLink} : State.LevelsInRange { s with hl := x } := g.same ⟨rfl, rfl, rfl⟩

/-! ### Every step -/

theorem exec_levelsInRange (c : Instr) (a : exec c s = .next t) : t.LevelsInRange := by
  cases c with
  | ordinaryStrobe order => exact next_inj a ▸ g.timeBase.timeBase.strobeReport
  | epochStrobe loss order => exact next_inj a ▸ g.takeEpoch.timeBase.strobeReport
  | strobeOverdue loss => exact g.execStrobeOverdue a
  | planChangeDue => exact next_inj a ▸ g.same ⟨rfl, rfl, rfl⟩
  | overheardExpiry x => exact g.execOverheardExpiry a
  | targetedListenDue => exact next_inj a ▸ g.measurement g.map g.overheard
  | holdoffExpiry i => exact g.execHoldoffExpiry a
  | idleExpiry i => exact g.execIdleExpiry a
  | setupCounterExpiry i => exact g.execSetupCounterExpiry a
  | pageTimeout x => exact g.execPageTimeout a
  | findExpiry r => exact g.execFindExpiry a
  | replyByMarkDue r => exact g.execReplyByMarkDue a
  | takeTimeout r => exact g.execTakeTimeout a
  | switchMarkDueOutbound r => exact g.execSwitchMarkDueOutbound a
  | fallbackExpiry r => exact g.execFallbackExpiry a
  | switchMarkDueInbound r => exact g.execSwitchMarkDueInbound a
  | arrivalWindowExpiry r => exact g.execArrivalWindowExpiry a
  | quietPeriodExpiry => exact next_inj a ▸ .ite g.quietReachesZero g
  | drainLimitExpiry => exact next_inj a ▸ .ite g.completeDrain g
  | listenReport record => exact next_inj a ▸ g.listenBurst (Burst.ofWord_level record)
  | attach record | presence record | call record | pageReply record =>
    exact next_inj a ▸ g.beaconBurst (Burst.ofWord_level record)
  | bearerReport record => exact next_inj a ▸ g.bearerBurst (Burst.ofWord_level record)
  | heldReport record => exact next_inj a ▸ g.heldBurst (Burst.ofWord_level record)
  | noticeBegin idle through => exact next_inj a ▸ g.same (by simp)
  | contentionLost bit => exact g.execContentionLost a
  | noticeSent => exact next_inj a ▸ .ite g.finishNotice g
  | yieldTimeExpiry idle => exact next_inj a ▸ g.same (by simp)
  | noticeHeard length word => exact next_inj a ▸ g.bus.hearNotice
  | takeReceived => exact g.execTakeReceived a
  | declineReceived => exact g.execDeclineReceived a
  | offerReceived => exact g.execOfferReceived a
  | claimReceived => exact g.execClaimReceived a
  | transferReceived => exact g.execTransferReceived a
  | seekReceived => exact g.execSeekReceived a
  | hereReceived => exact g.execHereReceived a
  | findReceived => exact g.execFindReceived a
  | configure record => exact g.execConfigure a
  | join => exact g.execJoin a
  | leave => exact g.execLeave a
  | restart => exact g.execRestart a
  | page x tag => exact g.execPage a
  | clearCall x => exact g.execClearCall a
  | locate x => exact g.execLocate a
  | queryHandset x | readEntry index => exact next_inj a ▸ .ite g.answer g.respond
  | readStatus | readTallies => exact next_inj a ▸ g.respond
  | readEvent => exact next_inj a ▸ g.hostLink.respond
  | clearTallies => exact next_inj a ▸ g.hostLink.answer
  | undefinedCommand code =>
    simp only [exec, execUndefinedCommand] at a
    split at a
    · exact next_inj a ▸ g.answer
    · cases a
  | nullCommand => exact next_inj a ▸ g.hostLink
  | incompleteTransaction clocked =>
    simp only [exec, execIncompleteTransaction] at a
    split at a
    · exact next_inj a ▸ g.hostLink
    · cases a
  | fullReset => exact next_inj a ▸ reset_levelsInRange.same ⟨rfl, rfl, rfl⟩

end

/-- Settles O59: a step idles, or runs a command, which sets a level by the filter, a starting value or an overheard entry. -/
theorem everyStepKeepsLevelsInRange : Obligations.EveryStepKeepsLevelsInRange := by
  intro s t g h
  cases q : s.pending with
  | nil =>
    rw [step_idle s q] at h
    exact next_inj h ▸ g
  | cons c rest =>
    rw [step_of_pending c rest s q] at h
    exact exec_levelsInRange (s := s.withPending rest) (g.same (by simp)) c h

end Sys2Proof.Machine
end

section
/-! The level filter, the merits and the error ring, against their rules. -/
namespace Sys2Proof.Machine

/-! ### The level filter (R37) -/

/-- The step is 0 exactly in its rest band. -/
theorem filterDelta_zero_iff (f l w : Nat) : filterDelta f l w = 0 ↔
    -(2 ^ (w - 1) : Int) ≤ 16 * (l : Int) - f ∧ 16 * (l : Int) - f + 2 ^ (w - 1) < 2 ^ w := by
  have pos : (0 : Int) < 2 ^ w := by positivity
  unfold filterDelta
  rw [Int.ediv_eq_iff_of_pos pos]
  omega

/-- R37: the rest band of the shifts a configuration can have. -/
theorem filterStep_rests_iff (f l w : Nat) (h1 : 1 ≤ w) (h4 : w ≤ 4) : filterStep f l w = f ↔
    -(2 ^ (w - 1) : Int) ≤ 16 * (l : Int) - f ∧ 16 * (l : Int) - f ≤ 2 ^ (w - 1) - 1 := by
  have moved : filterStep f l w = f ↔ filterDelta f l w = 0 := by
    have := (filterStep_between f l w h1 h4).1
    omega
  have double : (2 : Int) ^ w = 2 * 2 ^ (w - 1) := by
    rw [← pow_succ', Nat.sub_add_cancel h1]
  rw [moved, filterDelta_zero_iff, double]
  omega

/-- R39: what a bearer or held report leaves of an entry. -/
theorem State.measure_eq {s : State} {i : Nat} {e : Entry} (entry : s.entry? i = some e) (r : LinkReport) :
    s.measure i r = s.setEntry i (some (e.measure s.sc.config.filterShift r)) := State.modifyEntry_some s i e _ entry

@[simp] theorem Entry.measure_level (e : Entry) (w : Nat) (r : LinkReport) :
    (e.measure w r).level = filterStep e.level r.level w := by
  rw [Entry.measure, Entry.enterOutcome_level]

theorem State.heardEntry_known {s : State} {h : Handset} {o : Overheard} (known : s.overheard? h = some o) (l : Nat)
    (c : Cell) : s.heardEntry h l c =
      { handset := h, level := filterStep o.level l s.sc.config.filterShift, age := 0, cell := c } := by
  unfold State.heardEntry
  rw [known]

/-- R53: a cell of slots 1 to 15 and carriers 0 to 7 has a place in the map. -/
theorem mapPlace_lt {c : Cell} (slot : 1 ≤ c.slot ∧ c.slot ≤ 15) (carrier : c.carrier ≤ 7) : mapPlace c < 120 := by
  unfold mapPlace
  omega

/-- R54: the fed cell takes one step of shift 2. -/
theorem State.interference_feedMap {s : State} {c : Cell} (place : mapPlace c < 120) (l : Nat) :
    (s.feedMap c l).interference c = filterStep (s.interference c) l 2 := by
  simp [State.interference, State.feedMap, Config.mapShift, place]

/-- Settles O11: the step lies between F and 16 L, and is 0 in the rest band alone. -/
theorem filterStepNeverOvershoots : Obligations.FilterStepNeverOvershoots := by
  refine ⟨fun f l w hf hl h1 h4 => ?_, fun s i e r entry => ?_, fun s h l c o known => ?_, fun s c l h1 h15 h7 => ?_⟩
  · obtain ⟨step, up, down⟩ := filterStep_between f l w h1 h4
    exact ⟨step, up, down, filterStep_le f l w h1 h4 hf hl, filterStep_rests_iff f l w h1 h4⟩
  · rw [State.measure_eq entry, State.entry?_setEntry_self _ _ _ (State.entry?_lt entry), Option.map_some,
      Entry.measure_level]
  · rw [State.heardEntry_known known]
  · exact State.interference_feedMap (mapPlace_lt ⟨h1, h15⟩ h7) l

/-! ### The error ring and the merits (R41 to R44) -/

theorem Link.enter_ring (k : Link) (sync check : Bool) :
    (k.enter sync check).ring = k.ring.enter (decide (sync = false ∨ check = false)) := by
  cases sync <;> cases check <;> rfl

/-- R41: the write position goes round the eight places. -/
theorem Ring.enter_position {r : Ring} (h : r.position < 8) (fail : Bool) :
    (r.enter fail).position = (r.position + 1) % 8 := by
  unfold Ring.enter
  dsimp only
  split <;> omega

theorem Ring.enter_fails_self {r : Ring} (h : r.position < 8) (fail : Bool) :
    (r.enter fail).fails[r.position]? = some fail := by
  simp [Ring.enter, h]

theorem Ring.enter_fails_other {r : Ring} {k : Nat} (h : k ≠ r.position) (fail : Bool) :
    (r.enter fail).fails[k]? = r.fails[k]? := by
  simp [Ring.enter, h.symm]

/-- R41: E counts the places of the ring that hold a fail. -/
theorem Ring.errors_eq (r : Ring) : r.errors = (List.range 8).countP fun k => r.fails[k]? == some true := by
  obtain ⟨⟨⟨l⟩, size⟩, position⟩ := r
  have length : l.length = 8 := size
  match l, length with
  | [a, b, c, d, e, f, g, h], _ =>
    simp [Ring.errors, List.range_succ, List.countP_cons]

theorem Entry.errors_of_link {e : Entry} {k : Link} (h : e.link? = some k) : e.errors = k.ring.errors := by
  unfold Entry.errors
  rw [h]

theorem Entry.errors_of_no_link {e : Entry} (h : e.link? = none) : e.errors = 0 := by
  unfold Entry.errors
  rw [h]

/-- R41, R42: an outcome is entered by the state of the entry. -/
theorem Entry.enterOutcome_of_no_link {e : Entry} (h : e.link? = none) (sync check : Bool) : e.enterOutcome sync check = e := by
  cases phase : e.phase with
  | idle | arriving => simp only [Entry.enterOutcome, phase]
  | setup | inCall | leaving => simp [Entry.link?, phase] at h

theorem Entry.enterOutcome_setup {e : Entry} {c : Cell} {tag : Tag} {k : Link} (h : e.phase = .setup c tag k)
    (sync check : Bool) : e.enterOutcome sync check = { e with phase := .setup c tag (k.enter sync check) } := by
  simp only [Entry.enterOutcome, h]

theorem Entry.enterOutcome_inCall {e : Entry} {c : Cell} {tag : Tag} {k : Link} (h : e.phase = .inCall c tag k)
    (sync check : Bool) : e.enterOutcome sync check = { e with phase := .inCall c tag (k.enter sync check) } := by
  simp only [Entry.enterOutcome, h]

theorem Entry.enterOutcome_leaving {e : Entry} {c : Cell} {tag : Tag} {k : Link} (h : e.phase = .leaving c tag k)
    (sync check : Bool) : e.enterOutcome sync check = { e with phase := .leaving c tag (k.enter sync check) } := by
  simp only [Entry.enterOutcome, h]

/-- Settles O12: the merits are the rule's formulas, cut off at 0; the ring is written at its position, and by the entries
that have one. -/
theorem meritsAndOutcomes : Obligations.MeritsAndOutcomes := by
  refine ⟨fun e c => rfl, fun s o => rfl, Entry.errors_le, Link.enter_missRun_lost, Link.enter_missRun_sync,
    fun r fail h => ⟨Ring.enter_position h fail, Ring.enter_fails_self h fail, fun k h => Ring.enter_fails_other h fail⟩,
    Link.enter_ring, Ring.errors_eq, fun e => ⟨fun k => Entry.errors_of_link, Entry.errors_of_no_link⟩,
    fun e c tag k sync check => ⟨fun h => Entry.enterOutcome_setup h sync check,
      fun h => Entry.enterOutcome_inCall h sync check, fun h => Entry.enterOutcome_leaving h sync check, fun h => Entry.enterOutcome_of_no_link h sync check⟩⟩

end Sys2Proof.Machine
end

section
/-! The trigger test and its fires (chapter 3), against their rules. -/
namespace Sys2Proof.Machine

variable {s : State} {i r : Nat} {e : Entry} {c : Cell} {tag : Tag} {l : Link}

/-! ### The re-arm test (R45) -/

theorem rearmed_keeps (k : ConfigRecord) (e : Entry) : (rearmed k e).handset = e.handset ∧ (rearmed k e).stamp = e.stamp
    ∧ (rearmed k e).phase = e.phase ∧ (rearmed k e).level = e.level ∧ (rearmed k e).holdoff = e.holdoff := by
  unfold rearmed
  split <;> exact ⟨rfl, rfl, rfl, rfl, rfl⟩

/-- The merit reads level and ring alone. -/
theorem Entry.merit_congr {e f : Entry} (level : f.level = e.level) (phase : f.phase = e.phase) (k : ConfigRecord) :
    f.merit k = e.merit k := by
  simp only [Entry.merit, Entry.errors, Entry.link?, level, phase]

theorem Entry.missRun_inCall (phase : e.phase = .inCall c tag l) : e.missRun = l.missRun := by
  simp only [Entry.missRun, Entry.link?, phase]

/-! ### Which fire (R47) -/

theorem State.fireKind?_held (h : s.tb.known = false ∨ e.holdoff ≠ 0) : s.fireKind? e = none := by
  rcases h with unknown | running
  · simp [State.fireKind?, unknown]
  · simp [State.fireKind?, running]

section
variable (known : s.tb.known = true) (free : e.holdoff = 0)
include known free

theorem State.fireKind?_draining (station : s.sc.station = .draining) : s.fireKind? e = some .forced := by
  simp [State.fireKind?, known, free, station]

theorem State.fireKind?_active (station : s.sc.station = .active) : s.fireKind? e =
    if s.sc.config.collapseCount ≤ e.missRun then some .collapse
    else if e.armed && e.merit s.sc.config < s.sc.config.triggerThreshold then some .threshold else none := by
  simp [State.fireKind?, known, free, station]

end

/-! ### The trigger test (R47, R48) -/

/-- The test fires when the entry has no record, a fire's conditions hold and a record is free; else it changes nothing. -/
theorem State.trigger_fires (entry : s.entry? i = some e) {k : FireKind} (first : s.outOf i = none)
    (kind : s.fireKind? e = some k) (free : s.freeOut = some r) : s.trigger i = s.fire i e k r := by
  simp only [State.trigger, entry, first, kind, free]

theorem State.trigger_stays (entry : s.entry? i = some e)
    (h : s.outOf i ≠ none ∨ s.fireKind? e = none ∨ s.freeOut = none) : s.trigger i = s := by
  simp only [State.trigger, entry]
  split
  · rename_i first kind free
    rw [first, kind, free] at h
    simp at h
  all_goals rfl

/-- R45: the trigger test runs on the entry as the re-arm test leaves it. -/
theorem State.testTrigger_eq (entry : s.entry? i = some e) :
    s.testTrigger i = (s.setEntry i (some (rearmed s.sc.config e))).trigger i := by
  rw [State.testTrigger, State.modifyEntry_some s i e _ entry]

/-! ### A fire (R47, R128) -/

/-- The entry of a fire: a threshold fire disarms it. -/
def Entry.firedBy (e : Entry) (k : FireKind) : Entry := { e with armed := if k = .threshold then false else e.armed }

theorem State.disarmFor_setEntry (index : i < 64) (k : FireKind) :
    (s.setEntry i (some e)).disarmFor i k = s.setEntry i (some (e.firedBy k)) := by
  cases k with
  | threshold =>
    rw [State.disarmFor, State.modifyEntry_some _ i e _ (State.entry?_setEntry_self _ _ _ index), State.setEntry_setEntry]
    rfl
  | collapse | forced => rfl

theorem State.failEntry_some (entry : s.entry? i = some e) (reason : Reason) (other : Nat) :
    s.failEntry i reason other = ((s.post .handoverFailed e.handset other e.tag reason).count .handoverFailures).setEntry i
      (some { e with holdoff := s.sc.config.holdoff }) := by
  have entered : ((s.post .handoverFailed e.handset other e.tag reason).count .handoverFailures).entry? i = some e := by
    simpa using entry
  simp only [State.failEntry, entry, State.modifyEntry_some _ _ _ _ entered]

/-- R47: the margin is the configured one at a threshold fire alone. -/
theorem marginOf_eq (c : ConfigRecord) (k : FireKind) : marginOf c k = if k = .threshold then c.handoverMargin else 0 := by
  cases k <;> rfl

/-- R128: the SEEK of an IN_CALL entry is offered with its merit. -/
theorem State.seekNotice_inCall (phase : e.phase = .inCall c tag l) : s.seekNotice e =
    { sender := s.sc.config.stationNumber, dest := 0, handset := e.handset, stamp := e.stamp
      mark := s.tb.mark + BitVec.ofNat 8 s.sc.config.offerWindow
      body := .seek s.he.seekNumber c (e.merit s.sc.config) } := by
  simp only [State.seekNotice, Entry.cell?, phase, Option.getD_some, State.stationNumber, TimeBase.ahead]

/-- The record that a fire takes. -/
def State.seekingRecord (s : State) (i : Nat) (k : FireKind) : OutRecord :=
  { entry := i, seek := s.he.seekNumber, fire := k, margin := if k = .threshold then s.sc.config.handoverMargin else 0
    phase := .seeking (s.tb.mark + BitVec.ofNat 8 s.sc.config.offerWindow) [] }

/-- R128: an admitted SEEK leaves its record SEEKING and the next seek number. -/
theorem State.fire_admitted {t : State} {k : FireKind} (fired : s.disarmFor i k = t)
    (admitted : t.admits (t.seekNotice e) = true) :
    s.fire i e k r = { t.offer (t.seekNotice e) with
      he := { s.he with
        seekNumber := s.he.seekNumber + 1
        outbound := s.he.outbound.setIfInBounds r (some (s.seekingRecord i k)) } } := by
  have he : (t.offer (t.seekNotice e)).he = s.he := by simp [← fired]
  simp only [State.fire, fired, admitted, if_true, State.setOut, he, marginOf_eq]
  rfl

/-- R128: a refused SEEK fails the attempt with QUEUE. -/
theorem State.fire_refused {t : State} {k : FireKind} (fired : s.disarmFor i k = t)
    (refused : t.admits (t.seekNotice e) = false) :
    s.fire i e k r = t.failEntry i .queue 0 := by
  simp only [State.fire, fired, refused, Bool.false_eq_true, if_false]

/-- Settles O34: the re-arm test, then which fire's conditions hold, then what a fire does with its SEEK. -/
theorem triggerFires : Obligations.TriggerFires := by
  intro i e a c tag l s entry phase ha
  obtain rfl : a = rearmed s.sc.config e := ha
  have index := State.entry?_lt entry
  have test := State.testTrigger_eq entry
  obtain ⟨handset, stamp, phase', level, holdoff⟩ := rearmed_keeps s.sc.config e
  have merit := Entry.merit_congr level phase' s.sc.config
  generalize rearmed s.sc.config e = a at *
  rw [phase] at phase'
  have missRun := Entry.missRun_inCall phase'
  have armed : (s.setEntry i (some a)).entry? i = some a := State.entry?_setEntry_self _ _ _ index
  have stays := fun h => test.trans (State.trigger_stays armed h)
  refine ⟨fun r first => stays (Or.inl ?_), fun h => State.fireKind?_held (holdoff ▸ h),
    fun known free => State.fireKind?_draining known (holdoff.trans free), fun known free active => ?_,
    fun _ kind => stays (Or.inr (Or.inl kind)), fun _ full => stays (Or.inr (Or.inr full)), ?_⟩
  · rw [show (s.setEntry i (some a)).outOf i = s.outOf i from rfl, first]
    simp
  · rw [State.fireKind?_active known (holdoff.trans free) active, missRun, merit]
    refine ⟨fun collapse => if_pos collapse, fun run isArmed below => ?_, fun run h => ?_⟩
    · rw [if_neg (by omega), isArmed, Bool.true_and, if_pos (by simpa using below)]
    · rw [if_neg (by omega), if_neg]
      rcases h with disarmed | above
      · simp [disarmed]
      · simp [above]
  · rintro k r n x first kind free notice rfl
    have fires := test.trans (State.trigger_fires armed first kind free)
    have fired := State.disarmFor_setEntry (s := s) (e := a) index k
    have seek : (s.setEntry i (some (a.firedBy k))).seekNotice a = n := by
      rw [notice, ← merit, ← handset, ← stamp]
      exact State.seekNotice_inCall phase'
    refine ⟨fun admitted => ?_, fun refused => ?_⟩
    · rw [fires, State.fire_admitted fired (seek ▸ admitted), seek]
      rfl
    · have call : (a.firedBy k).tag = tag := by simp only [Entry.tag, Entry.firedBy, phase']
      rw [fires, State.fire_refused fired (seek ▸ refused),
        State.failEntry_some (State.entry?_setEntry_self _ _ _ index), call, ← handset]
      rfl

end Sys2Proof.Machine
end

section
/-! A bearer report of an entry in a call, on its way out or on its way in (chapters 2, 3, 6 and 9), against its rules. -/
namespace Sys2Proof.Machine

variable {s : State} {i : Nat} {e : Entry} {c : Cell} {tag : Tag} {k : Link} {r : LinkReport}

/-! ### The Call Controller's part (R103, R105) -/

/-- R103: a call is cleared with its slot and its records; its entry becomes IDLE. -/
theorem State.clearTheCall_eq (entry : s.entry? i = some e) (cell : e.cell? = some c) (reason : Reason) :
    s.clearTheCall i e reason = ((((((s.freeSlot c.slot).dropSetup i).dropOut i).dropIn i).setEntry i
      (some { e with phase := .idle 0 })).post .callDown e.handset 0 e.tag reason).drainTest := by
  have kept : (s.releaseCall i e).entry? i = some e := by simpa using entry
  rw [State.clearTheCall, State.toIdle, State.modifyEntry_some _ i e _ kept, State.releaseCall, State.freeBearer, cell]

/-- R105: a call is lost at the drop count. -/
theorem State.dropCall_eq (entry : s.entry? i = some e) (cell : e.cell? = some c) :
    s.dropCall i e = (((((((s.freeSlot c.slot).dropSetup i).dropOut i).dropIn i).setEntry i
      (some { e with phase := .idle 0 })).post .callLost e.handset 0 e.tag .signal).count .callsLost).drainTest := by
  have kept : (s.releaseCall i e).entry? i = some e := by simpa using entry
  rw [State.dropCall, State.toIdle, State.modifyEntry_some _ i e _ kept, State.releaseCall, State.freeBearer, cell]
  rfl

theorem State.callTakesReport_inCall (entry : s.entry? i = some e) (phase : e.phase = .inCall c tag k) (r : LinkReport) :
    s.callTakesReport i r = if r.good && r.clear then s.clearTheCall i e .handset
      else if s.sc.config.dropCount ≤ k.missRun then s.dropCall i e else s := by
  simp only [State.callTakesReport, entry, phase]

theorem State.callTakesReport_leaving (entry : s.entry? i = some e) (phase : e.phase = .leaving c tag k) (r : LinkReport) :
    s.callTakesReport i r = if r.good && r.clear then s.clearTheCall i e .handset else s := by
  simp only [State.callTakesReport, entry, phase]

theorem State.callTakesReport_other (entry : s.entry? i = some e)
    (phase : (∃ n, e.phase = .idle n) ∨ e.phase = .arriving c tag) (r : LinkReport) : s.callTakesReport i r = s := by
  rcases phase with ⟨n, phase⟩ | phase <;> simp only [State.callTakesReport, entry, phase]

/-! ### The Handover Engine's part (R45, R157) -/

theorem State.handoverTakesReport_inCall (entry : s.entry? i = some e) (phase : e.phase = .inCall c tag k) (r : LinkReport) :
    s.handoverTakesReport i r = s.testTrigger i := by
  simp only [State.handoverTakesReport, entry, phase]

theorem State.handoverTakesReport_arriving (entry : s.entry? i = some e) (phase : e.phase = .arriving c tag)
    (r : LinkReport) : s.handoverTakesReport i r = if r.good then s.tryArrival i e c tag else s := by
  simp only [State.handoverTakesReport, entry, phase]

/-- An entry that is neither IN_CALL nor ARRIVING, or that the drain has taken, is none of the Handover Engine's. -/
theorem State.handoverTakesReport_other (h : ∀ e, s.entry? i = some e → e.isInCall = false ∧ e.isArriving = false)
    (r : LinkReport) : s.handoverTakesReport i r = s := by
  unfold State.handoverTakesReport
  split
  · rename_i e entry
    obtain ⟨inCall, arriving⟩ := h e entry
    split
    · rename_i phase
      simp [Entry.isInCall, phase] at inCall
    · rename_i phase
      simp [Entry.isArriving, phase] at arriving
    all_goals rfl
  · rfl

/-- Drain completion frees every entry, so a drain test leaves an entry as it is or leaves none. -/
theorem State.entry?_drainTest (h : s.drainTest.entry? i = some e) : s.entry? i = some e := by
  unfold State.drainTest at h
  split at h
  · rw [State.completeDrain_eq] at h
    exact absurd (h.symm.trans (allFree_replicate 64 i)) (by simp)
  · exact h

/-- After a call's end the Handover Engine finds the entry IDLE, or gone with the drain. -/
theorem State.handoverTakesReport_ended {n : Nat} (entry : s.entry? i = some e) (phase : e.phase = .idle n) (r : LinkReport) :
    s.drainTest.handoverTakesReport i r = s.drainTest := by
  refine State.handoverTakesReport_other (fun f hf => ?_) r
  obtain rfl := Option.some.inj (entry.symm.trans (State.entry?_drainTest hf))
  simp only [Entry.isInCall, Entry.isArriving, phase, and_self]

theorem State.handoverTakesReport_cleared (entry : s.entry? i = some e) (cell : e.cell? = some c) (reason : Reason)
    (r : LinkReport) : (s.clearTheCall i e reason).handoverTakesReport i r = s.clearTheCall i e reason := by
  rw [State.clearTheCall_eq entry cell]
  refine State.handoverTakesReport_ended (e := { e with phase := .idle 0 }) ?_ rfl r
  simp [State.entry?_setEntry_self _ _ _ (State.entry?_lt entry)]

theorem State.handoverTakesReport_dropped (entry : s.entry? i = some e) (cell : e.cell? = some c) (r : LinkReport) :
    (s.dropCall i e).handoverTakesReport i r = s.dropCall i e := by
  rw [State.dropCall_eq entry cell]
  refine State.handoverTakesReport_ended (e := { e with phase := .idle 0 }) ?_ rfl r
  simp [State.entry?_setEntry_self _ _ _ (State.entry?_lt entry)]

theorem State.inOf_congr {s t : State} (h : t.he = s.he) (i : Nat) : t.inOf i = s.inOf i := by
  simp only [State.inOf, h]

theorem State.inRecord?_congr {s t : State} (h : t.he = s.he) (q : Nat) : t.inRecord? q = s.inRecord? q := by
  simp only [State.inRecord?, h]

/-- R157: an arrival needs an AWAITING record. -/
theorem State.tryArrival_awaiting {q n : Nat} {o : InRecord} (found : s.inOf i = some q) (record : s.inRecord? q = some o)
    (awaiting : o.phase = .awaiting n) : s.tryArrival i e c tag = s.arrive q i o e c tag := by
  simp only [State.tryArrival, found, record, awaiting]

theorem State.tryArrival_reserved {q : Nat} {o : InRecord} (found : s.inOf i = some q) (record : s.inRecord? q = some o)
    (reserved : o.phase = .reserved) : s.tryArrival i e c tag = s := by
  simp only [State.tryArrival, found, record, reserved]

theorem State.tryArrival_none (none : s.inOf i = none) : s.tryArrival i e c tag = s := by
  simp only [State.tryArrival, none]

/-! ### The report as a whole (R35) -/

/-- The Call Controller, then the Handover Engine, on the entry as it is measured. -/
theorem State.routed_inCall (entry : s.entry? i = some e) (phase : e.phase = .inCall c tag k) :
    (s.callTakesReport i r).handoverTakesReport i r =
      if r.good && r.clear then s.clearTheCall i e .handset
      else if s.sc.config.dropCount ≤ k.missRun then s.dropCall i e else s.testTrigger i := by
  have cell : e.cell? = some c := by simp only [Entry.cell?, phase]
  rw [State.callTakesReport_inCall entry phase]
  split
  · exact State.handoverTakesReport_cleared entry cell _ r
  · split
    · exact State.handoverTakesReport_dropped entry cell r
    · exact State.handoverTakesReport_inCall entry phase r

theorem State.routed_leaving (entry : s.entry? i = some e) (phase : e.phase = .leaving c tag k) :
    (s.callTakesReport i r).handoverTakesReport i r =
      if r.good && r.clear then s.clearTheCall i e .handset else s := by
  have cell : e.cell? = some c := by simp only [Entry.cell?, phase]
  rw [State.callTakesReport_leaving entry phase]
  split
  · exact State.handoverTakesReport_cleared entry cell _ r
  · refine State.handoverTakesReport_other (fun f hf => ?_) r
    obtain rfl := Option.some.inj (entry.symm.trans hf)
    simp only [Entry.isInCall, Entry.isArriving, phase, and_self]

theorem State.routed_arriving (entry : s.entry? i = some e) (phase : e.phase = .arriving c tag) :
    (s.callTakesReport i r).handoverTakesReport i r = if r.good then s.tryArrival i e c tag else s := by
  rw [State.callTakesReport_other entry (Or.inr phase), State.handoverTakesReport_arriving entry phase]

theorem State.routed_idle {n : Nat} (entry : s.entry? i = some e) (phase : e.phase = .idle n) :
    (s.callTakesReport i r).handoverTakesReport i r = s := by
  rw [State.callTakesReport_other (c := ⟨0, 0⟩) (tag := 0) entry (Or.inl ⟨n, phase⟩)]
  refine State.handoverTakesReport_other (fun f hf => ?_) r
  obtain rfl := Option.some.inj (entry.symm.trans hf)
  simp only [Entry.isInCall, Entry.isArriving, phase, and_self]

/-- R39, R41, R42: what a report leaves of an entry, by its state. -/
theorem Entry.measure_inCall (phase : e.phase = .inCall c tag k) (w : Nat) (r : LinkReport) : e.measure w r =
    { e with level := filterStep e.level r.level w, phase := .inCall c tag (k.enter r.sync r.check) } := by
  simp only [Entry.measure, Entry.enterOutcome, phase]

theorem Entry.measure_leaving (phase : e.phase = .leaving c tag k) (w : Nat) (r : LinkReport) : e.measure w r =
    { e with level := filterStep e.level r.level w, phase := .leaving c tag (k.enter r.sync r.check) } := by
  simp only [Entry.measure, Entry.enterOutcome, phase]

theorem Entry.measure_of_no_link (none : e.link? = none) (w : Nat) (r : LinkReport) :
    e.measure w r = { e with level := filterStep e.level r.level w } :=
  Entry.enterOutcome_of_no_link (e := { e with level := filterStep e.level r.level w }) none r.sync r.check

section
variable {w : BurstWord} {b : Burst} {h : Handset} {x : State} {m : Entry}

/-- A report that the plan in force asks for is measured, then the Call Controller and the Handover Engine take it in turn. -/
theorem exec_bearerReport_asked (read : Burst.ofWord w = b) (asks : s.BearerAsks b h) (found : s.find? h = some (i, e))
    (report : r = b.forHandset h) (measured : e.measure s.sc.config.filterShift r = m)
    (written : x = (s.markReported b.slot).setEntry i (some m)) :
    exec (.bearerReport w) s = .next ((x.callTakesReport i r).handoverTakesReport i r)
      ∧ x.entry? i = some m ∧ x.sc.config = s.sc.config ∧ x.he = s.he := by
  obtain ⟨lookup, entry, -⟩ := State.find?_some found
  have marked : (s.markReported b.slot).entry? i = some e := by simpa using entry
  have routed := s.bearerBurst_asks b h i asks lookup
  have config : (s.markReported b.slot).sc.config = s.sc.config := rfl
  rw [State.routeBearer, State.measure_eq marked, ← report, config, measured, ← written, ← read] at routed
  refine ⟨congrArg Host.Outcome.next routed, ?_, by simp [written], by simp [written]⟩
  rw [written, State.entry?_setEntry_self _ _ _ (State.entry?_lt entry)]

end

/-- Settles O33: the measured entry's state says what the Call Controller and the Handover Engine make of the report. -/
theorem bearerReportOfACall : Obligations.BearerReportOfACall := by
  intro w b h i e c tag f r s u read asks found hr hf hu
  obtain ⟨-, entry, rfl⟩ := State.find?_some found
  refine ⟨fun k k' x phase hk hx => ?_, fun k k' x phase hk hx => ?_, fun x q o phase hx owned record => ?_, fun h => ?_⟩
  · have measured := e.measure_inCall phase s.sc.config.filterShift r
    rw [← hf, ← hk] at measured
    obtain ⟨whole, held, config, -⟩ := exec_bearerReport_asked read asks found hr measured (hu ▸ hx)
    rw [whole, State.routed_inCall held rfl, config]
    refine ⟨fun ended => ?_, fun still lost => ?_, fun still near => ?_⟩
    · rw [if_pos (by simpa using ended), State.clearTheCall_eq held rfl]
      rfl
    · rw [if_neg (by simpa using still), if_pos lost, State.dropCall_eq held rfl]
      rfl
    · rw [if_neg (by simpa using still), if_neg (Nat.not_le_of_lt near)]
  · have measured := e.measure_leaving phase s.sc.config.filterShift r
    rw [← hf, ← hk] at measured
    obtain ⟨whole, held, -⟩ := exec_bearerReport_asked read asks found hr measured (hu ▸ hx)
    rw [whole, State.routed_leaving held rfl]
    refine ⟨fun ended => ?_, fun still => ?_⟩
    · rw [if_pos (by simpa using ended), State.clearTheCall_eq held rfl]
      rfl
    · rw [if_neg (by simpa using still)]
  · have measured := e.measure_of_no_link (by simp only [Entry.link?, phase]) s.sc.config.filterShift r
    rw [← hf] at measured
    obtain ⟨whole, held, -, same⟩ := exec_bearerReport_asked read asks found hr measured (hu ▸ hx)
    have owned' := (State.inOf_congr same i).trans owned
    have record' := (State.inRecord?_congr same q).trans record
    rw [whole, State.routed_arriving held phase]
    refine ⟨fun bad => ?_, fun reserved => ?_, fun n good awaiting => ?_⟩
    · rw [if_neg (by simp [bad])]
    · rw [State.tryArrival_reserved owned' record' reserved, ite_self]
    · rw [if_pos good, State.tryArrival_awaiting owned' record' awaiting]
      rfl
  · have link : e.link? = none := by rcases h with ⟨phase, -⟩ | ⟨n, phase⟩ <;> simp only [Entry.link?, phase]
    have measured := e.measure_of_no_link link s.sc.config.filterShift r
    rw [← hf] at measured
    obtain ⟨whole, held, -, same⟩ := exec_bearerReport_asked read asks found hr measured rfl
    rw [whole, hu]
    rcases h with ⟨phase, unowned⟩ | ⟨n, phase⟩
    · rw [State.routed_arriving held phase, State.tryArrival_none ((State.inOf_congr same i).trans unowned), ite_self]
    · rw [State.routed_idle held phase]

end Sys2Proof.Machine
end

section
/-! What strobes and sync losses leave alone, and the rows that end an overheard entry, a targeted listen and a holdoff. -/
namespace Sys2Proof.Machine

/-! ### Strobes and sync losses (chapter 1) -/

theorem State.keptByFrames_refl (s : State) : s.KeptByFrames s := (State.Kept.refl s).1

/-- The Time Base owns nothing of what is kept, so its own moves keep it. -/
theorem State.keptByFrames_timeBase (s : State) (x : TimeBase) : s.KeptByFrames { s with tb := x } :=
  ⟨rfl, rfl, rfl, rfl, rfl, rfl, rfl, rfl, rfl, rfl⟩

/-- The end of both strobes: the frame is counted and every block takes the strobe report. -/
theorem State.strobe_keptByFrames (s : State) (order : List StrobeWork) : s.KeptByFrames (s.countFrame.strobeReport order) :=
  (s.keptByFrames_timeBase _).trans (State.kept_strobeReport _ order).1

/-- Settles O7: each command is a move of the Time Base, a sync loss and a strobe report in a row, and each of them keeps it
all. -/
theorem framesKeepWhatTheyDoNotOwn : Obligations.FramesKeepWhatTheyDoNotOwn := by
  refine ⟨fun order s t h => ?_, fun loss order s t h => ?_, fun loss s t h => ?_⟩
  · obtain rfl := next_inj h
    exact (s.keptByFrames_timeBase _).trans (State.strobe_keptByFrames _ order)
  · obtain rfl := next_inj h
    exact (s.takeEpoch_keeps loss).trans (State.strobe_keptByFrames _ order)
  · obtain rfl := next_inj h
    split
    · exact s.keptByFrames_refl
    · split
      · exact (s.keptByFrames_timeBase _).trans (State.syncLoss_keeps _ _ _ loss).1
      · exact s.keptByFrames_timeBase _

/-! ### Targeted listens that are due (R67) -/

theorem TimeBase.due_known {tb : TimeBase} (known : tb.known = true) (m : Mark) : tb.due m = (m == tb.mark) := by
  rw [Bool.eq_iff_iff, TimeBase.due_iff, beq_iff_eq]
  simp [known]

theorem State.endDueListens_known {s : State} (known : s.tb.known = true) : s.endDueListens =
    { s with mu := { s.mu with listens := s.mu.listens.filter fun r => r.replyBy != s.tb.mark } } := by
  unfold State.endDueListens
  simp only [TimeBase.due_known known, bne]

theorem State.endDueListens_unknown {s : State} (unknown : s.tb.known = false) : s.endDueListens = s := by
  unfold State.endDueListens
  simp only [TimeBase.due_unknown _ _ unknown, Bool.not_false, List.filter_true]

/-! ### Overheard entries at their end (R60) -/

theorem exec_overheardExpiry_due {h : Handset} {o : Overheard} {s : State} (found : s.overheard? h = some o)
    (old : s.sc.config.overheardLife ≤ o.age + 1) : exec (.overheardExpiry h) s = .next (s.removeOverheard h) := by
  simp only [exec, execOverheardExpiry, found, if_pos old]

theorem exec_overheardExpiry_young {h : Handset} {s : State}
    (young : ∀ o, s.overheard? h = some o → o.age + 1 < s.sc.config.overheardLife) :
    exec (.overheardExpiry h) s = .next s := by
  simp only [exec, execOverheardExpiry]
  split
  · rename_i o found
    rw [if_neg (Nat.not_le_of_lt (young o found))]
  · rfl

/-! ### Holdoffs at their end (R46) -/

theorem holdoffReachesZero_arms {c : ConfigRecord} {e : Entry}
    (below : e.isInCall = true ∧ e.merit c < c.triggerThreshold) :
    holdoffReachesZero c e = { e with holdoff := 0, armed := true } := by
  unfold holdoffReachesZero
  simp [below]

theorem holdoffReachesZero_keeps {c : ConfigRecord} {e : Entry}
    (above : ¬(e.isInCall = true ∧ e.merit c < c.triggerThreshold)) :
    holdoffReachesZero c e = { e with holdoff := 0 } := by
  have unarmed : (e.isInCall && decide (e.merit c < c.triggerThreshold)) = false := by simpa using above
  rw [holdoffReachesZero, unarmed, Bool.or_false]

theorem exec_holdoffExpiry_reachesZero {i : Fin 64} {e : Entry} {s : State} (entry : s.entry? i.val = some e)
    (one : e.holdoff = 1) :
    exec (.holdoffExpiry i) s = .next (s.setEntry i.val (some (holdoffReachesZero s.sc.config e))) := by
  rw [exec_holdoffExpiry_due i e s entry one, State.entry?_holdoffsStrobe, entry, Option.map_some,
    countHoldoff_of_one _ e one]

/-- An entry written as it stands changes nothing. -/
theorem State.setEntry_of_entry? {s : State} {i : Nat} {e : Entry} (entry : s.entry? i = some e) :
    s.setEntry i (some e) = s := by
  have index := State.entry?_lt entry
  have stands : s.rc.table[i] = some e := by simpa [State.entry?, index] using entry
  have table : s.rc.table.setIfInBounds i (some e) = s.rc.table := by
    refine Vector.ext fun k hk => ?_
    rw [Vector.getElem_setIfInBounds]
    split
    · rename_i here
      subst here
      exact stands.symm
    · rfl
  rw [State.setEntry, table]

theorem exec_holdoffExpiry_other {i : Fin 64} {s : State} (other : ∀ e, s.entry? i.val = some e → e.holdoff ≠ 1) :
    exec (.holdoffExpiry i) s = .next s := by
  have row : exec (.holdoffExpiry i) s
      = .next (s.modifyEntry i.val fun e => if e.holdoff = 1 then holdoffReachesZero s.sc.config e else e) := rfl
  rw [row]
  cases entry : s.entry? i.val with
  | none => rw [State.modifyEntry_none _ _ _ entry]
  | some e => rw [State.modifyEntry_some _ _ _ _ entry, if_neg (other e entry), State.setEntry_of_entry? entry]

/-- Settles O16, row by row. -/
theorem listsAndHoldoffsExpire : Obligations.ListsAndHoldoffsExpire := by
  refine ⟨fun h o s => exec_overheardExpiry_due, fun s known => congrArg _ (State.endDueListens_known known),
    fun s unknown => congrArg _ (State.endDueListens_unknown unknown), fun i e s entry one => ?_,
    fun h s => exec_overheardExpiry_young, fun i s => exec_holdoffExpiry_other⟩
  rw [exec_holdoffExpiry_reachesZero entry one]
  exact ⟨fun below => by rw [holdoffReachesZero_arms below], fun above => by rw [holdoffReachesZero_keeps above]⟩

end Sys2Proof.Machine
end

section
/-! A hearing, the targeted listens it ends, and a listen report (chapter 4), against their rules. -/
namespace Sys2Proof.Machine

/-! ### A hearing (R57 to R59, R66) -/

theorem State.hearing_held {s : State} {h : Handset} (held : s.isHeld h = true) (l : Nat) (c : Cell) :
    s.hearing h l c = s := if_pos held

theorem State.hearing_notHeld {s : State} {h : Handset} (free : s.isHeld h = false) (l : Nat) (c : Cell) :
    s.hearing h l c = (s.mu.listens.filter fun r => r.handset == h).foldl State.answerListen
      ((s.recordHearing h l c).endListensFor h) := if_neg (by simp [free])

theorem State.heardEntry_unknown {s : State} {h : Handset} (unknown : s.overheard? h = none) (l : Nat) (c : Cell) :
    s.heardEntry h l c = { handset := h, level := 16 * l, age := 0, cell := c } := by
  unfold State.heardEntry
  rw [unknown]
  rfl

/-- A hearing leaves the map: the overheard list and the targeted listens alone change, and the answers are offers. -/
theorem State.map_hearing (s : State) (h : Handset) (l : Nat) (c : Cell) : (s.hearing h l c).mu.map = s.mu.map := by
  unfold State.hearing
  split
  · rfl
  · simp [State.endListensFor, State.recordHearing]

/-! ### The answer to a targeted listen (R149, R150) -/

/-- A reply-by mark ahead says that the mark is known. -/
theorem State.seekOpen_iff (s : State) (h : Handset) (m : Mark) : s.seekOpen h m = true ↔
    s.isActive = true ∧ s.tb.within m 1 128 = true ∧ s.isHeld h = false ∧ s.hasAllocatable = true := by
  have known : s.tb.within m 1 128 = true → s.tb.known = true := fun ahead => ((TimeBase.within_iff _ _ _ _).mp ahead).1
  simp only [State.seekOpen, Bool.and_eq_true, Bool.not_eq_true']
  tauto

theorem State.answerListen_closed {s : State} {r : ListenRequest} (closed : ¬ s.seekOpen r.handset r.replyBy = true) :
    s.answerListen r = s := if_neg closed

theorem State.answerListen_open {s : State} {r : ListenRequest} (opened : s.seekOpen r.handset r.replyBy = true) :
    s.answerListen r = s.decideOffer r.handset r.seeker r.seek r.stamp := if_pos opened

theorem State.decideOffer_overheard {s : State} {h : Handset} {o : Overheard} (found : s.overheard? h = some o) (seeker : Nat)
    (seek : BitVec 8) (stamp : Stamp) : s.decideOffer h seeker seek stamp =
      if s.sc.config.offerFloor ≤ s.offerMeritOf o then s.offer (s.offerNotice o seeker seek stamp) else s := by
  unfold State.decideOffer
  rw [found]

/-- Settles O24: the hearing by whether the handset is held, the answer by whether the SEEK is open still. -/
theorem hearingUpdatesTheOverheardList : Obligations.HearingUpdatesTheOverheardList := by
  refine ⟨fun h l c s held => State.hearing_held held l c, fun h l c s new free hnew => ?_, fun r s closed => ?_,
    fun r o s active ahead free cell found => ?_⟩
  · have entry : s.heardEntry h l c = new := by
      cases found : s.overheard? h with
      | none => rw [State.heardEntry_unknown found, hnew, ← State.overheard?, found]
      | some o => rw [State.heardEntry_known found, hnew, ← State.overheard?, found]
    rw [State.hearing_notHeld free, ← entry]
    rfl
  · refine State.answerListen_closed fun opened => ?_
    obtain ⟨active, ahead, free, cell⟩ := (s.seekOpen_iff _ _).mp opened
    simp [active, ahead, free, cell] at closed
  · rw [State.answerListen_open ((s.seekOpen_iff _ _).mpr ⟨active, ahead, free, cell⟩), State.decideOffer_overheard found,
      State.offerNotice, (State.overheard?_some found).2]
    rfl

/-! ### The cells of the map (R53, R54) -/

theorem State.interference_congr {s t : State} (map : t.mu.map = s.mu.map) : t.interference = s.interference := by
  funext c
  rw [State.interference, State.interference, map]

/-- R53: cells of slots 1 to 15 and carriers 0 to 7 have places of their own. -/
theorem mapPlace_inj {c d : Cell} (hc : 1 ≤ c.slot ∧ c.carrier ≤ 7) (hd : 1 ≤ d.slot ∧ d.carrier ≤ 7)
    (same : mapPlace c = mapPlace d) : c = d := by
  unfold mapPlace at same
  have slot : c.slot = d.slot := by omega
  have carrier : c.carrier = d.carrier := by omega
  cases c
  cases d
  simp_all

/-- R54: a cell at another place than the fed one stays. -/
theorem State.interference_feedMap_other {s : State} {c d : Cell} (apart : mapPlace c ≠ mapPlace d) (l : Nat) :
    (s.feedMap c l).interference d = s.interference d := by
  simp [State.interference, State.feedMap, apart]

/-! ### A listen report (R34, R54, R57) -/

theorem Burst.ofWord_slot (w : BurstWord) : (Burst.ofWord w).slot ≤ 15 := Nat.le_of_lt_succ (w.extractLsb' 60 4).isLt

theorem Burst.ofWord_carrier (w : BurstWord) : (Burst.ofWord w).carrier ≤ 7 := Nat.le_of_lt_succ (w.extractLsb' 56 3).isLt

/-- The cell a burst report is of. -/
def Burst.cell (b : Burst) : Cell := { slot := b.slot, carrier := b.carrier }

/-- A report that the plan in force asks for as a listen is marked and feeds the Measurement Unit. -/
theorem State.listenBurst_asks {s : State} {b : Burst} (asks : s.ListenAsks b) (joined : s.joined = true) :
    s.listenBurst b = (s.markReported b.slot).takeListen b := by
  obtain ⟨request, planned⟩ := asks
  have accepted : s.accepts b = true := by simp [State.accepts, planned, PlanRole.carrier?]
  have joined' : (s.markReported b.slot).joined = true := joined
  simp only [State.listenBurst, planned, accepted, State.routeListen, joined', if_true]

theorem State.takeListen_unnamed {s : State} {b : Burst} (unnamed : b.handset? = none) :
    s.takeListen b = s.feedMap b.cell b.level := by
  simp only [State.takeListen, unnamed, Burst.cell]

theorem State.takeListen_named {s : State} {b : Burst} {h : Handset} (named : b.handset? = some h) :
    s.takeListen b = (s.feedMap b.cell b.level).hearing h b.level b.cell := by
  simp only [State.takeListen, named, Burst.cell]

/-- Whether it is a hearing or not, a listen report leaves the map as its cell's step makes it. -/
theorem State.map_takeListen (s : State) (b : Burst) : (s.takeListen b).mu.map = (s.feedMap b.cell b.level).mu.map := by
  cases handset : b.handset? with
  | none => rw [State.takeListen_unnamed handset]
  | some h => rw [State.takeListen_named handset, State.map_hearing]

/-- Settles O23: the map is what the step of the cell leaves, and the rest is the hearing's, if there is one. -/
theorem listenReportFeedsTheMap : Obligations.ListenReportFeedsTheMap := by
  intro w b s read asks joined first
  have last : b.slot ≤ 15 := read ▸ Burst.ofWord_slot w
  have carrier : b.carrier ≤ 7 := read ▸ Burst.ofWord_carrier w
  have row : exec (.listenReport w) s = .next ((s.markReported b.slot).takeListen b) := by
    rw [← State.listenBurst_asks asks joined, ← read]
    rfl
  have map := (s.markReported b.slot).map_takeListen b
  refine ⟨_, row, ?_, fun c slot _ hc apart => ?_, fun unnamed => ?_, fun h named => ?_⟩
  · rw [State.interference_congr map]
    exact State.interference_feedMap (mapPlace_lt ⟨first, last⟩ carrier) b.level
  · rw [State.interference_congr map]
    exact State.interference_feedMap_other (fun same => apart (mapPlace_inj ⟨slot, hc⟩ ⟨first, carrier⟩ same.symm)) b.level
  · rw [map, State.takeListen_unnamed unnamed]
    rfl
  · rw [map, State.takeListen_named named]
    rfl

end Sys2Proof.Machine
end

section
/-! Every step keeps the handsets of the attachment table and the overheard list apart. -/
namespace Sys2Proof.Machine

/-- Settles O57: no act of a step gives a handset a second entry, a second overheard entry, or one of each. -/
theorem everyStepKeepsHandsetsApart : Obligations.EveryStepKeepsHandsetsApart :=
  fun _ _ => step_keeps_of_acts act_handsetsApart

end Sys2Proof.Machine
end

section
/-! The rows that end an IDLE entry, a page record, a setup and a find record, and how a page record leaves the list. -/
namespace Sys2Proof.Machine

/-! ### Idle entries (R80) -/

/-- R80: an expired entry's page ends with it, and DETACHED is posted. -/
theorem State.expireIdle_eq {s : State} {i : Nat} {e : Entry} (entry : s.entry? i = some e) :
    s.expireIdle i e = ((s.removePage e.handset).setEntry i none).post .detached e.handset 0 0 .expired := by
  rw [State.expireIdle, State.freeEntry_some s i e entry]

theorem exec_idleExpiry_due {i : Fin 64} {e : Entry} {n : Nat} {s : State} (entry : s.entry? i.val = some e)
    (phase : e.phase = .idle n) (last : s.sc.config.idleExpiry ≤ n + 1) :
    exec (.idleExpiry i) s = .next (s.expireIdle i.val e) := by
  simp only [exec, execIdleExpiry, entry, phase, if_pos last]

theorem exec_idleExpiry_early {i : Fin 64} {s : State}
    (early : ∀ e n, s.entry? i.val = some e → e.phase = .idle n → n + 1 < s.sc.config.idleExpiry) :
    exec (.idleExpiry i) s = .next s := by
  refine congrArg Host.Outcome.next ?_
  cases entry : s.entry? i.val with
  | none => rfl
  | some e =>
    cases phase : e.phase with
    | idle n => simp only [phase, if_neg (Nat.not_le_of_lt (early e n entry phase))]
    | setup | inCall | leaving | arriving => simp only [phase]

/-! ### Page records (R99, R102) -/

theorem State.pageFails_found {s : State} {h : Handset} {p : PageRecord} (found : s.page? h = some p) (reason : Reason) :
    s.pageFails h reason = (s.removePage h).post .pageFailed h 0 p.tag reason := by
  simp only [State.pageFails, found]

theorem exec_pageTimeout_due {h : Handset} {p : PageRecord} {s : State} (found : s.page? h = some p)
    (last : p.remaining ≤ 1) : exec (.pageTimeout h) s = .next (s.pageFails h .timeout) := by
  simp only [exec, execPageTimeout, found, if_pos last]

theorem exec_pageTimeout_early {h : Handset} {s : State} (early : ∀ p, s.page? h = some p → 2 ≤ p.remaining) :
    exec (.pageTimeout h) s = .next s := by
  refine congrArg Host.Outcome.next ?_
  cases found : s.page? h with
  | none => rfl
  | some p => exact if_neg (Nat.not_le_of_lt (early p found))

theorem State.removePage_absent {s : State} {h : Handset} (absent : ∀ p ∈ s.cc.pages, p.handset ≠ h) : s.removePage h = s := by
  have nowhere : s.cc.pages.findIdx? (fun p => p.handset == h) = none :=
    List.findIdx?_eq_none_iff.mpr fun p mem => by simpa using absent p mem
  simp only [State.removePage, CallControl.removePage, nowhere]

/-- R99: the rotation cursor goes to the record that followed the one taken out, or to the first that is left, or to none. -/
theorem rotationAfter_append (before after : List PageRecord) :
    rotationAfter (before ++ after) before.length =
      match after.head?, before.head? with
      | some q, _ => some q.handset
      | none, some q => some q.handset
      | none, none => none := by
  cases after with
  | cons q after => simp [rotationAfter]
  | nil => cases before <;> simp [rotationAfter]

/-- R99: the first record of a handset is taken out of the list. -/
theorem CallControl.removePage_found {c : CallControl} {before after : List PageRecord} {p : PageRecord}
    (pages : c.pages = before ++ p :: after) (first : ∀ q ∈ before, q.handset ≠ p.handset) :
    c.removePage p.handset = { c with
      pages := before ++ after
      rotation := if c.rotation = some p.handset then rotationAfter (before ++ after) before.length else c.rotation } := by
  have place : c.pages.findIdx? (fun q => q.handset == p.handset) = some before.length :=
    pages ▸ findIdx?_page before after p first
  have rest : c.pages.eraseIdx before.length = before ++ after := by simp [pages, List.eraseIdx_append_of_length_le]
  simp only [CallControl.removePage, place, rest, beq_iff_eq]

/-! ### Setups (R98) -/

theorem State.freeBearer_of_cell {e : Entry} {c : Cell} (cell : e.cell? = some c) (s : State) :
    s.freeBearer e = s.freeSlot c.slot := by
  rw [State.freeBearer, cell]

theorem State.setupFails_eq {s : State} {i : Nat} {e : Entry} {c : Cell} (entry : s.entry? i = some e)
    (cell : e.cell? = some c) (discarded : Bool) :
    s.setupFails i e discarded =
      ((((s.freeSlot c.slot).setEntry i (some { e with phase := .idle 0 })).dropSetup i).post .callFailed e.handset 0 e.tag
        (if discarded then .queue else .timeout)).drainTest := by
  have kept : (s.freeSlot c.slot).entry? i = some e := by simpa using entry
  rw [State.setupFails, State.freeBearer_of_cell cell, State.toIdle, State.modifyEntry_some _ i e _ kept]

theorem exec_setupCounterExpiry_due {i : Fin 64} {e : Entry} {r : SetupRecord} {s : State} (record : s.setup? i.val = some r)
    (last : r.counter ≤ 1) (entry : s.entry? i.val = some e) :
    exec (.setupCounterExpiry i) s = .next (s.setupFails i.val e r.discarded) := by
  simp only [exec, execSetupCounterExpiry, State.setupReachesZero, record, entry, if_pos last]

theorem exec_setupCounterExpiry_early {i : Fin 64} {s : State} (early : ∀ r, s.setup? i.val = some r → 2 ≤ r.counter) :
    exec (.setupCounterExpiry i) s = .next s := by
  refine congrArg Host.Outcome.next ?_
  cases record : s.setup? i.val with
  | none => rfl
  | some r => exact if_neg (Nat.not_le_of_lt (early r record))

/-! ### Find records (R88) -/

/-- A find record is no entry: what is held is found as before. -/
@[simp] theorem State.find?_setFind (s : State) (r : Nat) (f : Option FindRecord) : (s.setFind r f).find? = s.find? := rfl

/-- R88: the three reports of an expired find, by who holds the handset. -/
theorem State.expireFind_held {s : State} {f : FindRecord} {i : Nat} {e : Entry} (held : s.find? f.handset = some (i, e))
    (r : Nat) : s.expireFind r f = (s.setFind r none).post .located f.handset s.sc.config.stationNumber
      (e.stamp.epoch ++ e.stamp.hop) (foundReason e.engaged) := by
  obtain ⟨-, -, same⟩ := State.find?_some held
  rw [State.expireFind, State.reportFind, State.find?_setFind, held, ← same]
  rfl

theorem State.expireFind_answered {s : State} {f : FindRecord} {a : FindAnswer} (away : s.find? f.handset = none)
    (answer : f.answer = some a) (r : Nat) : s.expireFind r f =
      (s.setFind r none).post .located f.handset a.station (a.stamp.epoch ++ a.stamp.hop) (foundReason a.inCall) := by
  simp only [State.expireFind, State.reportFind, State.find?_setFind, away, answer, Stamp.asTag]

theorem State.expireFind_unanswered {s : State} {f : FindRecord} (away : s.find? f.handset = none)
    (answer : f.answer = none) (r : Nat) : s.expireFind r f = (s.setFind r none).post .notFound f.handset 0 0 .none := by
  simp only [State.expireFind, State.reportFind, State.find?_setFind, away, answer]

theorem exec_findExpiry_due {r : Fin 4} {f : FindRecord} {s : State} (record : s.findRecord? r.val = some f)
    (last : f.remaining ≤ 1) : exec (.findExpiry r) s = .next (s.expireFind r.val f) := by
  simp only [exec, execFindExpiry, record, if_pos last]

theorem exec_findExpiry_early {r : Fin 4} {s : State} (early : ∀ f, s.findRecord? r.val = some f → 2 ≤ f.remaining) :
    exec (.findExpiry r) s = .next s := by
  refine congrArg Host.Outcome.next ?_
  cases record : s.findRecord? r.val with
  | none => rfl
  | some f => exact if_neg (Nat.not_le_of_lt (early f record))

/-- Settles O17: each row at the last frame of what it ends, and before; and how a page record leaves the list. -/
theorem idlePageAndSetupExpiry : Obligations.IdlePageAndSetupExpiry := by
  refine ⟨fun i e n s entry phase last => ?_, fun h p s found last => ?_,
    fun i e r c tag k s record last entry phase => ?_, fun r f s record last => ⟨fun i e held => ?_, fun a away answer => ?_,
      fun away answer => ?_⟩, fun h s => ⟨State.removePage_absent, fun before p after pages first same => ?_⟩,
    fun i s => ⟨exec_idleExpiry_early, exec_setupCounterExpiry_early⟩, fun h s => exec_pageTimeout_early,
    fun r s => exec_findExpiry_early⟩
  · rw [exec_idleExpiry_due entry phase last, State.expireIdle_eq entry]
  · rw [exec_pageTimeout_due found last, State.pageFails_found found]
  · have cell : e.cell? = some c := by simp only [Entry.cell?, phase]
    have carried : e.tag = tag := by simp only [Entry.tag, phase]
    rw [exec_setupCounterExpiry_due record last entry, State.setupFails_eq entry cell, carried]
  · rw [exec_findExpiry_due record last, State.expireFind_held held]
    rfl
  · rw [exec_findExpiry_due record last, State.expireFind_answered away answer]
    rfl
  · rw [exec_findExpiry_due record last, State.expireFind_unanswered away answer]
  · subst same
    have taken := CallControl.removePage_found pages first
    rw [rotationAfter_append] at taken
    exact congrArg (fun c => ({ s with cc := c } : State)) taken

end Sys2Proof.Machine
end

section
/-! Beacon uplinks of the Registration Controller, ATTACH and PRESENCE (chapter 5), against their rules. -/
namespace Sys2Proof.Machine

section
variable {s : State} {b : Burst} {h : Handset} {i : Nat} {e : Entry} {epoch : BitVec 8} {l : Nat}

/-! ### The report on its way to its block (R34, R35) -/

theorem State.isActive_iff (s : State) : s.isActive = true ↔ s.sc.station = .active := by simp [State.isActive]

theorem State.isActive_of_draining (draining : s.sc.station = .draining) : s.isActive = false := by
  simp [State.isActive, draining]

/-- A report of the beacon slot that the plan in force asks for reaches its block, with its handset and its message, while
the station serves. -/
theorem State.beaconBurst_uplink {u : Uplink} (asks : s.BeaconAsks b) (named : b.handset? = some h)
    (message : b.message.uplink? = some u) (serving : s.serving = true) :
    s.beaconBurst u.kind b = (s.markReported b.slot).takeUplink b h u := by
  have own : b.ofRow u.kind = true := by simp only [Burst.ofRow, message, beq_self_eq_true]
  have serving' : (s.markReported b.slot).serving = true := serving
  rw [s.beaconBurst_asks u.kind b asks own]
  simp only [State.routeUplink, serving', named, message, if_true]

theorem exec_attach_asked {w : BurstWord} {target : Nat} (read : Burst.ofWord w = b) (asks : s.BeaconAsks b)
    (named : b.handset? = some h) (message : b.message = .attach epoch target) (serving : s.serving = true) :
    exec (.attach w) s = .next (if target = s.sc.config.stationNumber
      then (s.markReported b.slot).takeAttach h epoch b.level
      else (s.markReported b.slot).hearing h b.level { slot := b.slot, carrier := b.carrier }) := by
  have routed := State.beaconBurst_uplink (u := .attach epoch target) asks named (by rw [message]; rfl) serving
  rw [← read] at routed ⊢
  exact congrArg Host.Outcome.next routed

theorem exec_presence_asked {w : BurstWord} (read : Burst.ofWord w = b) (asks : s.BeaconAsks b)
    (named : b.handset? = some h) (message : b.message = .presence) (serving : s.serving = true) :
    exec (.presence w) s = .next ((s.markReported b.slot).takePresence h b.level) := by
  have routed := State.beaconBurst_uplink (u := .presence) asks named (by rw [message]; rfl) serving
  rw [← read] at routed ⊢
  exact congrArg Host.Outcome.next routed

/-! ### ATTACH (R73 to R77) -/

/-- R77: a station that is not ACTIVE attaches none. -/
theorem State.takeAttach_inactive (inactive : s.isActive = false) : s.takeAttach h epoch l = s.denyAttach h .leaving :=
  if_pos (by simp [inactive])

theorem State.takeAttach_unknown (active : s.isActive = true) (away : s.find? h = none) :
    s.takeAttach h epoch l = s.attachNew h epoch l := by
  simp only [State.takeAttach, active, away, Bool.not_true, Bool.false_eq_true, if_false]

/-- R75 to R77: a held handset's epoch beside its entry's. -/
theorem State.takeAttach_held (active : s.isActive = true) (held : s.find? h = some (i, e)) :
    s.takeAttach h epoch l = if epoch = e.stamp.epoch then s.grant h
      else if serialNewer epoch e.stamp.epoch then s.newTenure i e epoch l else s.denyAttach h .stale := by
  simp only [State.takeAttach, active, held, Bool.not_true, Bool.false_eq_true, if_false]

theorem State.attachNew_full (full : s.freeIndex = none) : s.attachNew h epoch l = s.denyAttach h .full := by
  simp only [State.attachNew, full]

theorem State.attachNew_free (free : s.freeIndex = some i) : s.attachNew h epoch l =
    ((((s.setEntry i (some (attachedEntry h epoch l))).becomesHeld h).grant h).offerClaim i).post .attached h 0 0 .new := by
  simp only [State.attachNew, free]

/-- A newer epoch is another. -/
theorem serialNewer_ne {a b : BitVec 8} (newer : serialNewer a b = true) : a ≠ b := by
  rintro rfl
  simp [serialNewer, serialDiff] at newer

theorem State.entry?_endTenure (s : State) (i : Nat) (e : Entry) : (s.endTenure i e).entry? = s.entry? := by
  unfold State.endTenure
  split <;> simp

/-- R76: the tenure begins in the entry that the old one had. -/
theorem State.newTenure_eq (entry : s.entry? i = some e) : s.newTenure i e epoch l =
    (((((s.endTenure i e).removePage e.handset).setEntry i (some { e with
      stamp := { epoch := epoch, hop := 0 }, phase := .idle 0, level := filterStart l })).grant e.handset).offerClaim i).post
        .attached e.handset 0 0 .newTenure := by
  have kept : ((s.endTenure i e).removePage e.handset).entry? i = some e := by
    simpa [State.entry?_endTenure] using entry
  rw [State.newTenure, State.modifyEntry_some _ i e _ kept]

/-! ### PRESENCE (R79) -/

theorem State.takePresence_held (held : s.find? h = some (i, e)) : s.takePresence h l = s.hearUplink h l := by
  obtain ⟨lookup, -, -⟩ := State.find?_some held
  simp only [State.takePresence, State.hearUplink, lookup]

theorem State.takePresence_unknown (away : s.find? h = none) :
    s.takePresence h l = s.denyAttach h (if s.isActive then .notAttached else .leaving) := by
  simp only [State.takePresence, (s.find?_none_iff h).mp away]

theorem State.hearUplink_unknown (away : s.find? h = none) : s.hearUplink h l = s := by
  simp only [State.hearUplink, (s.find?_none_iff h).mp away]

/-- R40, R79: a held handset's entry is spoken for and takes one filter step. -/
theorem State.hearUplink_held (held : s.find? h = some (i, e)) : s.hearUplink h l =
    s.setEntry i (some { e.spoken with level := filterStep e.level l s.sc.config.filterShift }) := by
  obtain ⟨lookup, entry, -⟩ := State.find?_some held
  rw [State.hearUplink, lookup]
  exact State.modifyEntry_some _ i e _ entry

theorem Entry.spoken_idle {n : Nat} (phase : e.phase = .idle n) : e.spoken = { e with phase := .idle 0 } := by
  simp only [Entry.spoken, phase]

/-- R79: an engaged entry keeps no silence. -/
theorem Entry.spoken_engaged (engaged : e.engaged = true) : e.spoken = e := by
  unfold Entry.spoken
  split
  · rename_i phase
    simp [Entry.engaged, phase] at engaged
  all_goals rfl

end

/-- Settles O26: who is meant, the station's state, and then the epoch beside that of the entry, if there is one. -/
theorem attachIsAnswered : Obligations.AttachIsAnswered := by
  intro w b h epoch target s u read asks named message serving hu
  have row := exec_attach_asked read asks named message serving
  have finds : u.find? = s.find? := by simp [hu]
  have places : u.freeIndex = s.freeIndex := by simp [hu]
  have station : u.sc = s.sc := by simp [hu]
  have active : s.sc.station = .active → u.isActive = true := fun g => u.isActive_iff.mpr (station ▸ g)
  rw [← hu] at row
  refine ⟨fun other => ?_, fun here draining => ?_, fun here g away full => ?_, fun i here g away free => ?_,
    fun i e here g held => ?_⟩
  · rw [row, if_neg other]
  · rw [row, if_pos here, State.takeAttach_inactive (State.isActive_of_draining (station ▸ draining))]
  · rw [row, if_pos here, State.takeAttach_unknown (active g) (finds ▸ away), State.attachNew_full (places ▸ full)]
  · rw [row, if_pos here, State.takeAttach_unknown (active g) (finds ▸ away), State.attachNew_free (places ▸ free), hu]
    rfl
  · obtain ⟨-, entry, rfl⟩ := State.find?_some held
    rw [row, if_pos here, State.takeAttach_held (active g) (finds ▸ held)]
    refine ⟨fun same => by rw [if_pos same], fun differ old => ?_, fun v newer hv => ?_⟩
    · rw [if_neg differ, if_neg (by simp [old])]
    · have entry' : u.entry? i = some e := by simpa [hu] using entry
      rw [if_neg (serialNewer_ne newer), if_pos newer, State.newTenure_eq entry', hv]
      rfl

/-- Settles O27: PRESENCE by whether the handset is held, and the silence and level of its entry by the entry's state. -/
theorem presenceResetsSilence : Obligations.PresenceResetsSilence := by
  refine ⟨fun w b h s u read asks named message serving hu => ?_, fun h l i n e s held phase => ?_,
    fun h l i e s held engaged => ?_, fun h l s => State.hearUplink_unknown⟩
  · have row := exec_presence_asked read asks named message serving
    have finds : u.find? = s.find? := by simp [hu]
    have station : u.sc = s.sc := by simp [hu]
    rw [← hu] at row
    rw [row]
    refine ⟨fun i e held => by rw [State.takePresence_held (finds ▸ held)], fun away active => ?_, fun away draining => ?_⟩
    · rw [State.takePresence_unknown (finds ▸ away), if_pos (u.isActive_iff.mpr (station ▸ active))]
    · rw [State.takePresence_unknown (finds ▸ away), State.isActive_of_draining (station ▸ draining)]
      rfl
  · rw [State.hearUplink_held held, Entry.spoken_idle phase]
  · rw [State.hearUplink_held held, Entry.spoken_engaged engaged]

end Sys2Proof.Machine
end

section
/-! Supersession by holder notices, and a CLAIM as the success of a handover (chapters 5 and 8), against their rules. -/
namespace Sys2Proof.Machine

section
variable {s : State} {n : Notice} {i : Nat} {e : Entry}

/-! ### Supersession (R81 to R85) -/

theorem State.supersede_unknown (away : s.find? n.handset = none) : s.supersede n = s := by
  simp only [State.supersede, away]

/-- R82: a newer stamp. -/
theorem State.supersede_newer (held : s.find? n.handset = some (i, e)) (newer : n.stamp.newer e.stamp = true) :
    s.supersede n = s.supersedeEntry i e n.sender := by
  simp only [State.supersede, held, Stamp.compare_newer _ _ newer]

/-- R84: an equal stamp. -/
theorem State.supersede_equal (held : s.find? n.handset = some (i, e)) (equal : n.stamp = e.stamp) :
    s.supersede n = s.post .stampConflict n.handset n.sender e.tag .equal := by
  obtain ⟨-, -, same⟩ := State.find?_some held
  simp only [State.supersede, held, equal, Stamp.compare_self, same]

/-- R84: stamps of which each is older than the other. -/
theorem State.supersede_opposed (held : s.find? n.handset = some (i, e)) (older : n.stamp.older e.stamp = true)
    (back : e.stamp.older n.stamp = true) : s.supersede n = s.post .stampConflict n.handset n.sender e.tag .opposed := by
  obtain ⟨-, -, same⟩ := State.find?_some held
  simp only [State.supersede, held, Stamp.compare_opposed _ _ older back, same]

/-- R85: an older stamp. -/
theorem State.supersede_older (held : s.find? n.handset = some (i, e)) (older : n.stamp.older e.stamp = true)
    (notBack : e.stamp.older n.stamp = false) : s.supersede n = s.correct i e := by
  simp only [State.supersede, held, Stamp.compare_older _ _ older notBack]

/-- R82: an entry without a call is freed. -/
theorem State.supersedeEntry_idle (idle : e.engaged = false) (sender : Nat) :
    s.supersedeEntry i e sender = (s.freeEntry i).post .detached e.handset sender 0 .superseded :=
  if_neg (by simp [idle])

/-- R82: an entry with a call is freed with it. -/
theorem State.supersedeEntry_engaged (engaged : e.engaged = true) (sender : Nat) :
    s.supersedeEntry i e sender =
      (((s.releaseCall i e).freeEntry i).post .detached e.handset sender e.tag .supersededCall).drainTest :=
  if_pos engaged

/-- R85: an entry in a handover draws no correction. -/
theorem State.correct_eq (s : State) (i : Nat) (e : Entry) :
    s.correct i e = if e.isLeaving || e.isArriving then s else s.offerClaim i := by
  cases phase : e.phase <;> simp [State.correct, Entry.isLeaving, Entry.isArriving, phase]

/-! ### CLAIM (R83, R140) -/

/-- A CLAIM at the front of the receive queue of a station in service. -/
theorem exec_claimReceived_serving {rest : List Notice} {f : Bool} (serving : s.serving = true) (rx : s.bus.rx = n :: rest)
    (body : n.body = .claim f) : exec .claimReceived s = .next (s.takeClaim n).dropReceived := by
  simp only [exec, execClaimReceived, State.oldestReceived, rx, List.head?_cons, body, State.handleClaim, State.dispatch,
    serving, if_true]

theorem State.takeClaim_success {r : Nat} {o : OutRecord} (held : s.find? n.handset = some (i, e))
    (leaving : e.isLeaving = true) (found : s.outOf i = some r) (record : s.outRecord? r = some o)
    (target : o.phase.target? = some n.sender) (stamp : n.stamp = e.stamp.nextHop) :
    s.takeClaim n = s.succeed r i e n.sender := by
  have success : s.claimOfSuccess? n = some (r, i, e) := by
    simp [State.claimOfSuccess?, held, found, leaving, record, target, stamp]
  simp only [State.takeClaim, success]

/-- R83: a CLAIM that lacks one of the three marks of success is handled by its stamp. -/
theorem State.takeClaim_other
    (other : ∀ i e, s.find? n.handset = some (i, e) → e.isLeaving = false ∨ n.stamp ≠ e.stamp.nextHop
      ∨ ∀ r o, s.outOf i = some r → s.outRecord? r = some o → o.phase.target? ≠ some n.sender) :
    s.takeClaim n = s.supersede n := by
  have failure : s.claimOfSuccess? n = none := by
    unfold State.claimOfSuccess?
    split
    · rfl
    · rename_i i e held
      split
      · rfl
      · rename_i r found
        obtain ⟨o, record, -⟩ := State.outOf_some found
        refine if_neg fun marks => ?_
        simp only [record, Option.bind_some, Bool.and_eq_true, beq_iff_eq] at marks
        obtain ⟨⟨leaving, target⟩, stamp⟩ := marks
        obtain staying | differ | another := other i e held
        · exact absurd (leaving.symm.trans staying) (by simp)
        · exact differ stamp
        · exact another r o found record target
  simp only [State.takeClaim, failure]

/-- R140: the call of a LEAVING entry is handed out. -/
theorem State.succeed_leaving {c : Cell} {tag : Tag} {k : Link} (phase : e.phase = .leaving c tag k) (r sender : Nat) :
    s.succeed r i e sender = ((((((s.freeSlot c.slot).post .handedOut e.handset sender tag .none).count
      .handoversOut).freeEntry i).setOut r none).drainTest) := by
  simp only [State.succeed, State.freeBearer, Entry.cell?, Entry.tag, phase]

end

/-- Settles O41: a holder notice by the order of the stamps, and a CLAIM by whether it is one of success. -/
theorem claimsSupersedeOrSucceed : Obligations.ClaimsSupersedeOrSucceed := by
  refine ⟨fun n s => State.supersede_unknown, fun n i e s held => ?_, fun n rest f s serving rx body => ?_⟩
  · obtain ⟨-, -, same⟩ := State.find?_some held
    refine ⟨fun newer idle => ?_, fun newer engaged => ?_, State.supersede_equal held, State.supersede_opposed held,
      fun older notBack => ?_⟩
    · rw [State.supersede_newer held newer, State.supersedeEntry_idle idle, same]
    · rw [State.supersede_newer held newer, State.supersedeEntry_engaged engaged, same]
    · rw [State.supersede_older held older notBack, State.correct_eq]
  · rw [exec_claimReceived_serving serving rx body]
    refine ⟨fun i e c tag k r o held phase found record target stamp => ?_, fun other => ?_⟩
    · obtain ⟨-, -, same⟩ := State.find?_some held
      have leaving : e.isLeaving = true := by simp only [Entry.isLeaving, phase]
      rw [State.takeClaim_success held leaving found record target stamp, State.succeed_leaving phase, same]
    · rw [State.takeClaim_other other]

end Sys2Proof.Machine
end

section
/-! Which cell a selection takes: the window order, the search order, and the choice among the allocatable cells (chapter 6). -/
namespace Sys2Proof.Machine

section
variable {s : State} {c : Cell}

/-! ### The window order and the search order (R92) -/

theorem Cell.after_iff (c d : Cell) :
    c.after d = true ↔ d.slot < c.slot ∨ (d.slot = c.slot ∧ d.carrier < c.carrier) := by
  simp [Cell.after]

theorem numbersFrom_ascending (lo hi : Nat) : (numbersFrom lo hi).Pairwise (· < ·) :=
  List.pairwise_map.mpr (List.pairwise_lt_range.imp fun h => by omega)

/-- Slot by slot, and carrier by carrier within a slot. -/
theorem windowOrder_ascending (k : ConfigRecord) :
    (windowOrder k).Pairwise fun a b => a.slot < b.slot ∨ (a.slot = b.slot ∧ a.carrier < b.carrier) := by
  refine List.pairwise_flatMap.mpr ⟨fun slot _ => ?_, (numbersFrom_ascending _ _).imp fun slots x hx y hy => ?_⟩
  · exact List.pairwise_map.mpr ((numbersFrom_ascending _ _).imp fun carriers => Or.inr ⟨rfl, carriers⟩)
  · obtain ⟨_, -, rfl⟩ := List.mem_map.mp hx
    obtain ⟨_, -, rfl⟩ := List.mem_map.mp hy
    exact Or.inl slots

/-- A list along which a property is never lost is its part without the property, then its part with it. -/
theorem filter_not_append_filter {α : Type} {p : α → Bool} {l : List α}
    (kept : l.Pairwise fun a b => p a = true → p b = true) : l = l.filter (fun x => !p x) ++ l.filter p := by
  induction l with
  | nil => rfl
  | cons a l ih =>
    obtain ⟨later, rest⟩ := List.pairwise_cons.mp kept
    cases held : p a with
    | false => simpa [held] using ih rest
    | true =>
      have all : ∀ x ∈ l, p x = true := fun x hx => later x hx held
      have lacking : l.filter (fun x => !p x) = [] := List.filter_eq_nil_iff.mpr fun x hx => by simp [all x hx]
      simp [held, lacking, List.filter_eq_self.mpr all]

/-- The cursor cuts the window order in two, which the search order takes the other way round. -/
theorem State.windowOrder_cut (s : State) : windowOrder s.sc.config =
    (windowOrder s.sc.config).filter (fun x => !x.after s.cc.allocCursor)
      ++ (windowOrder s.sc.config).filter fun x => x.after s.cc.allocCursor := by
  refine filter_not_append_filter ((windowOrder_ascending _).imp fun {a b} ordered beyond => ?_)
  rw [Cell.after_iff] at beyond ⊢
  omega

/-! ### The choice (R91, R92) -/

theorem State.slotPending_false_iff (s : State) (slot : Nat) :
    s.slotPending slot = false ↔ ∀ d ∈ s.sp.changes, d.slot ≠ slot := by
  simp [State.slotPending]

/-- An allocatable cell lies in the scan window. -/
theorem State.mem_windowOrder_of_allocatable (h : s.allocatable c = true) : c ∈ windowOrder s.sc.config := by
  obtain ⟨slotLow, slotHigh, carrierLow, carrierHigh, -⟩ := (s.allocatable_iff c).mp h
  exact (mem_windowOrder _ c).mpr ⟨slotLow, slotHigh, carrierLow, carrierHigh⟩

/-- The search passes every allocatable cell. -/
theorem State.mem_searchOrder_of_allocatable (h : s.allocatable c = true) : c ∈ s.searchOrder :=
  (s.mem_searchOrder c).mpr (State.mem_windowOrder_of_allocatable h)

theorem State.selectCell_quietest (chosen : s.selectCell = some c) {d : Cell} (h : s.allocatable d = true) :
    s.interference c ≤ s.interference d :=
  ((quietest_spec _ _).2 c chosen).1 d (List.mem_filter.mpr ⟨State.mem_searchOrder_of_allocatable h, h⟩)

/-- Among equals the first in the search order is taken. -/
theorem State.selectCell_first (chosen : s.selectCell = some c) : ∃ before rest, s.searchOrder = before ++ c :: rest
    ∧ ∀ d ∈ before, s.allocatable d = true → s.interference c < s.interference d := by
  obtain ⟨-, louder, later, cut, higher⟩ := (quietest_spec _ _).2 c chosen
  obtain ⟨passed, fromHere, whole, hpassed, hfromHere⟩ := List.filter_eq_append_iff.mp cut
  obtain ⟨skipped, rest, hrest, unfit, -⟩ := List.filter_eq_cons_iff.mp hfromHere
  refine ⟨passed ++ skipped, rest, by rw [whole, hrest, List.append_assoc], fun d hd fit => ?_⟩
  rcases List.mem_append.mp hd with hd | hd
  · exact higher d (hpassed ▸ List.mem_filter.mpr ⟨hd, fit⟩)
  · exact absurd fit (unfit d hd)

theorem State.selectCell_none_iff (s : State) : s.selectCell = none ↔ ∀ d, s.allocatable d = false := by
  rw [State.selectCell, (quietest_spec _ _).1, List.filter_eq_nil_iff]
  constructor
  · intro unfit d
    by_contra fit
    have fit : s.allocatable d = true := by simpa using fit
    exact unfit d (State.mem_searchOrder_of_allocatable fit) fit
  · intro unfit d _
    simp [unfit d]

theorem State.hasAllocatable_iff (s : State) : s.hasAllocatable = true ↔ ∃ d, s.allocatable d = true := by
  rw [State.hasAllocatable, List.any_eq_true]
  exact ⟨fun ⟨d, _, h⟩ => ⟨d, h⟩, fun ⟨d, h⟩ => ⟨d, State.mem_windowOrder_of_allocatable h, h⟩⟩

end

/-- Settles O29: the selection is the quietest of the allocatable cells in the search order, which is the window order cut
at the cursor. -/
theorem selectionTakesTheQuietestCell : Obligations.SelectionTakesTheQuietestCell := by
  refine ⟨fun s c => ?_, fun s c chosen => ?_, State.selectCell_none_iff, State.hasAllocatable_iff,
    fun s c range serving chosen => ?_, mem_windowOrder, windowOrder_ascending, fun s k hk => ?_⟩
  · rw [s.allocatable_iff, s.slotPending_false_iff]
  · exact ⟨State.selectCell_allocatable chosen, fun d => State.selectCell_quietest chosen, State.selectCell_first chosen⟩
  · obtain ⟨-, -, accepted⟩ := State.commitRefusal?_of_allocatable serving range (State.selectCell_allocatable chosen)
    exact accepted
  · subst hk
    refine ⟨_, _, s.windowOrder_cut, rfl, fun x hx => ?_, fun x hx => ?_⟩
    · exact (Cell.after_iff x _).mp (List.mem_filter.mp hx).2
    · rw [← Cell.after_iff]
      simpa using (List.mem_filter.mp hx).2

end Sys2Proof.Machine
end

section
/-! How a setup begins, and the uplinks that ask for one, CALL and PAGE REPLY (chapter 6), against their rules. -/
namespace Sys2Proof.Machine

section
variable {s : State} {h : Handset} {i : Nat} {e : Entry} {c : Cell} {tag : Tag} {p : PageRecord}

theorem Entry.isIdle_of_not_engaged (idle : e.engaged = false) : e.isIdle = true := by rw [Entry.isIdle_eq, idle]; rfl

theorem Entry.isIdle_of_engaged (engaged : e.engaged = true) : e.isIdle = false := by rw [Entry.isIdle_eq, engaged]; rfl

/-! ### How a setup begins (R93, R96) -/

/-- R31, R96: the BEARER message will be discarded exactly while the beacon queue is full. -/
theorem State.not_beaconAdmits (s : State) : (!s.beaconAdmits) = decide (8 ≤ s.sp.beaconQ.length) := by
  rw [Bool.eq_iff_iff, Bool.not_eq_true', decide_eq_true_iff, Bool.eq_false_iff, Ne, State.beaconAdmits_iff, Nat.not_lt]

theorem State.beginSetup_eq (entry : s.entry? i = some e) (h : Handset) (c : Cell) (tag : Tag) :
    s.beginSetup i h c tag = State.offerBeacon
      { s.setEntry i (some { e with phase := .setup c tag { ring := Ring.fresh, missRun := 0 } }) with
        cc := { s.cc with setups := s.cc.setups ++
          [{ entry := i, counter := s.sc.config.arrivalWindow, discarded := decide (8 ≤ s.sp.beaconQ.length) }] } }
      (.bearer h c tag) := by
  rw [State.beginSetup, State.modifyEntry_some s i e _ entry, State.addSetup, State.not_beaconAdmits]
  rfl

/-! ### CALL (R95) -/

/-- R95, R101: a station that is not ACTIVE sets no call up, and the handset's page ends with the attempt. -/
theorem State.takeCall_inactive (inactive : s.isActive = false) :
    s.takeCall h = (s.denyCall h .leaving).pageFails h .leaving := if_pos (by simp [inactive])

theorem State.takeCall_unknown (active : s.isActive = true) (away : s.find? h = none) :
    s.takeCall h = s.denyCall h .notAttached := by
  simp only [State.takeCall, active, away, Bool.not_true, Bool.false_eq_true, if_false]

theorem State.takeCall_held (active : s.isActive = true) (held : s.find? h = some (i, e)) :
    s.takeCall h = if e.engaged then s.denyCall h .busy else s.setUpCall i h := by
  simp only [State.takeCall, active, held, Entry.isIdle_eq, Bool.not_true, Bool.not_not, Bool.false_eq_true, if_false]

theorem State.setUpCall_noBearer (unfit : s.selectCell = none) : s.setUpCall i h = s.denyCall h .noBearer := by
  simp only [State.setUpCall, selectCommit_none s h 14 unfit]

/-- R94, R95: the call of a paged handset carries the page's tag. -/
theorem State.setUpCall_paged (chosen : s.selectCell = some c) (accepted : (s.moveCursor c).commitRefusal? c.slot = none)
    (paged : s.page? h = some p) : s.setUpCall i h =
      (((s.moveCursor c).writeSlot c.slot (.bearer c.carrier h)).removePage h).beginSetup i h c p.tag := by
  have paged' : ((s.moveCursor c).writeSlot c.slot (.bearer c.carrier h)).page? h = some p := paged
  simp only [State.setUpCall, selectCommit_some s h 14 c chosen accepted, paged']

/-- R94, R95: any other call carries the station's next tag. -/
theorem State.setUpCall_unpaged (chosen : s.selectCell = some c)
    (accepted : (s.moveCursor c).commitRefusal? c.slot = none) (unpaged : s.page? h = none) : s.setUpCall i h =
      ((s.moveCursor c).writeSlot c.slot (.bearer c.carrier h)).advanceTag.beginSetup i h c s.ownTag := by
  have unpaged' : ((s.moveCursor c).writeSlot c.slot (.bearer c.carrier h)).page? h = none := unpaged
  simp only [State.setUpCall, selectCommit_some s h 14 c chosen accepted, unpaged']
  rfl

/-! ### PAGE REPLY (R101) -/

theorem State.takePageReply_inactive (inactive : s.isActive = false) :
    s.takePageReply h tag = (s.denyCall h .leaving).pageFails h .leaving := if_pos (by simp [inactive])

theorem State.takePageReply_unknown (active : s.isActive = true) (away : s.find? h = none) :
    s.takePageReply h tag = s.denyCall h .notAttached := by
  simp only [State.takePageReply, active, away, Bool.not_true, Bool.false_eq_true, if_false]

theorem State.takePageReply_busy (active : s.isActive = true) (held : s.find? h = some (i, e)) (engaged : e.engaged = true) :
    s.takePageReply h tag = s.denyCall h .busy := by
  simp only [State.takePageReply, active, held, Entry.isIdle_of_engaged engaged, Bool.not_true, Bool.not_false,
    Bool.false_eq_true, if_false, if_true]

theorem State.takePageReply_noPage (active : s.isActive = true) (held : s.find? h = some (i, e)) (idle : e.engaged = false)
    (unpaged : s.page? h = none) : s.takePageReply h tag = s.denyCall h .noPage := by
  simp only [State.takePageReply, active, held, Entry.isIdle_of_not_engaged idle, unpaged, Bool.not_true,
    Bool.false_eq_true, if_false]

/-- R101: a reply to another page of the handset is passed over. -/
theorem State.takePageReply_paged (active : s.isActive = true) (held : s.find? h = some (i, e)) (idle : e.engaged = false)
    (paged : s.page? h = some p) : s.takePageReply h tag = if p.tag = tag then s.setUpReply i h tag else s := by
  simp only [State.takePageReply, active, held, Entry.isIdle_of_not_engaged idle, paged, Bool.not_true, Bool.false_eq_true,
    if_false, ne_eq, ite_not]

theorem State.setUpReply_noBearer (unfit : s.selectCell = none) : s.setUpReply i h tag = s.denyCall h .noBearer := by
  simp only [State.setUpReply, selectCommit_none s h 14 unfit]

theorem State.setUpReply_chosen (chosen : s.selectCell = some c)
    (accepted : (s.moveCursor c).commitRefusal? c.slot = none) : s.setUpReply i h tag =
      (((s.moveCursor c).writeSlot c.slot (.bearer c.carrier h)).removePage h).beginSetup i h c tag := by
  simp only [State.setUpReply, selectCommit_some s h 14 c chosen accepted]

/-! ### The report on its way to the Call Controller (R35) -/

section
variable {w : BurstWord} {b : Burst}

/-- R35: the Registration Controller hears a CALL first. -/
theorem exec_call_asked (read : Burst.ofWord w = b) (asks : s.BeaconAsks b) (named : b.handset? = some h)
    (message : b.message = .call) (serving : s.serving = true) :
    exec (.call w) s = .next (((s.markReported b.slot).hearUplink h b.level).takeCall h) := by
  have routed := State.beaconBurst_uplink (u := .call) asks named (by rw [message]; rfl) serving
  rw [← read] at routed ⊢
  exact congrArg Host.Outcome.next routed

/-- R35: the Registration Controller hears a PAGE REPLY first. -/
theorem exec_pageReply_asked (read : Burst.ofWord w = b) (asks : s.BeaconAsks b) (named : b.handset? = some h)
    (message : b.message = .pageReply tag) (serving : s.serving = true) :
    exec (.pageReply w) s = .next (((s.markReported b.slot).hearUplink h b.level).takePageReply h tag) := by
  have routed := State.beaconBurst_uplink (u := .pageReply tag) asks named (by rw [message]; rfl) serving
  rw [← read] at routed ⊢
  exact congrArg Host.Outcome.next routed

end

end

/-- Settles O30: a setup is written out, and a CALL goes by the station's state, the entry, the selection and the page. -/
theorem callSetsUpOrIsDenied : Obligations.CallSetsUpOrIsDenied := by
  refine ⟨fun s i e h c tag entry => State.beginSetup_eq entry h c tag,
    fun w b h s v read asks named message serving hv => ?_⟩
  have row := exec_call_asked read asks named message serving
  have station : v.sc = s.sc := by simp [hv]
  have calls : v.cc = s.cc := by simp [hv]
  have active : s.sc.station = .active → v.isActive = true := fun g => v.isActive_iff.mpr (station ▸ g)
  rw [← hv] at row
  rw [row]
  refine ⟨fun draining => ?_, fun g away => ?_, fun i e g held => ?_⟩
  · rw [State.takeCall_inactive (State.isActive_of_draining (station ▸ draining))]
  · rw [State.takeCall_unknown (active g) away]
  · rw [State.takeCall_held (active g) held]
    refine ⟨fun engaged => by rw [if_pos engaged], fun idle unfit => ?_, fun c x idle chosen accepted hx => ?_⟩
    · rw [if_neg (by simp [idle]), State.setUpCall_noBearer unfit]
    · rw [if_neg (by simp [idle])]
      refine ⟨fun unpaged => ?_, fun p paged => ?_⟩
      · rw [State.setUpCall_unpaged chosen accepted unpaged, ← hx, State.ownTag, State.stationNumber, station, calls]
        rfl
      · rw [State.setUpCall_paged chosen accepted paged, ← hx]

/-- Settles O31: a PAGE REPLY goes by the station's state, the entry, the page beside the reply's tag, and the selection. -/
theorem pageReplySetsUpOrIsDenied : Obligations.PageReplySetsUpOrIsDenied := by
  intro w b h tag s v read asks named message serving hv
  have row := exec_pageReply_asked read asks named message serving
  have station : v.sc = s.sc := by simp [hv]
  have active : s.sc.station = .active → v.isActive = true := fun g => v.isActive_iff.mpr (station ▸ g)
  rw [← hv] at row
  rw [row]
  refine ⟨fun draining => ?_, fun g away => ?_, fun i e g held => ⟨fun engaged => ?_, fun idle unpaged => ?_,
    fun p idle paged other => ?_, fun p idle paged same unfit => ?_, fun p c idle paged same chosen accepted => ?_⟩⟩
  · rw [State.takePageReply_inactive (State.isActive_of_draining (station ▸ draining))]
  · rw [State.takePageReply_unknown (active g) away]
  · rw [State.takePageReply_busy (active g) held engaged]
  · rw [State.takePageReply_noPage (active g) held idle unpaged]
  · rw [State.takePageReply_paged (active g) held idle paged, if_neg other]
  · rw [State.takePageReply_paged (active g) held idle paged, if_pos same, State.setUpReply_noBearer unfit]
  · rw [State.takePageReply_paged (active g) held idle paged, if_pos same, State.setUpReply_chosen chosen accepted]

end Sys2Proof.Machine
end

section
/-! A bearer report of an entry whose setup runs (chapter 6), against its rules. -/
namespace Sys2Proof.Machine

section
variable {s : State} {i : Nat} {e : Entry} {c : Cell} {tag : Tag} {k : Link}

theorem Entry.measure_setup (phase : e.phase = .setup c tag k) (w : Nat) (r : LinkReport) : e.measure w r =
    { e with level := filterStep e.level r.level w, phase := .setup c tag (k.enter r.sync r.check) } := by
  simp only [Entry.measure, Entry.enterOutcome, phase]

theorem State.callTakesReport_setup (entry : s.entry? i = some e) (phase : e.phase = .setup c tag k) (r : LinkReport) :
    s.callTakesReport i r = if r.good then if r.clear then s.clearTheCall i e .handset else s.callUp i e c tag k else s := by
  simp only [State.callTakesReport, entry, phase]

/-- R97: a setup that succeeds leaves the entry IN_CALL. -/
theorem State.entry?_callUp (entry : s.entry? i = some e) (c : Cell) (tag : Tag) (k : Link) :
    (s.callUp i e c tag k).entry? i = some { e with phase := .inCall c tag k, armed := true, holdoff := 0 } := by
  simp [State.callUp, State.entry?_setEntry_self _ _ _ (State.entry?_lt entry)]

/-- R35: the call that a report sets up or ends is found by the Handover Engine in its new state. -/
theorem State.routed_setup (entry : s.entry? i = some e) (phase : e.phase = .setup c tag k) (r : LinkReport) :
    (s.callTakesReport i r).handoverTakesReport i r =
      if r.good then if r.clear then s.clearTheCall i e .handset else (s.callUp i e c tag k).testTrigger i else s := by
  have cell : e.cell? = some c := by simp only [Entry.cell?, phase]
  rw [State.callTakesReport_setup entry phase]
  split
  · split
    · exact State.handoverTakesReport_cleared entry cell _ r
    · exact State.handoverTakesReport_inCall (State.entry?_callUp entry c tag k) rfl r
  · refine State.handoverTakesReport_other (fun f hf => ?_) r
    obtain rfl := Option.some.inj (entry.symm.trans hf)
    simp only [Entry.isInCall, Entry.isArriving, phase, and_self]

end

/-- Settles O32: the measured SETUP entry, by whether the report is good, and clears. -/
theorem bearerReportOfASetup : Obligations.BearerReportOfASetup := by
  intro w b h i e c tag k k' f r s u read asks found phase hr hf hk hu
  obtain ⟨-, -, rfl⟩ := State.find?_some found
  have measured := e.measure_setup phase s.sc.config.filterShift r
  rw [← hf, ← hk] at measured
  obtain ⟨whole, held, -⟩ := exec_bearerReport_asked read asks found hr measured hu
  rw [whole, State.routed_setup held rfl]
  refine ⟨fun bad => ?_, fun good clear => ?_, fun good goesOn => ?_⟩
  · rw [if_neg (by simp [bad])]
  · rw [if_pos good, if_pos clear, State.clearTheCall_eq held rfl]
    rfl
  · rw [if_pos good, if_neg (by simp [goesOn])]
    rfl

end Sys2Proof.Machine
end

section
/-! PAGE, CLEAR CALL and LOCATE of the host link (chapters 5, 6 and 11), against their rules. -/
namespace Sys2Proof.Machine

section
variable {s : State} {h : Handset} {i : Nat} {e : Entry} {c : Cell} {tag : Tag} {k : Link}

theorem State.isActive_of_ne (other : s.sc.station ≠ .active) : s.isActive = false := by simpa [State.isActive] using other

/-! ### PAGE (R99) -/

theorem exec_page_refused {code : ResponseCode} (refused : s.pageRefusal? h = some code) :
    exec (.page h tag) s = .next (s.answer 5 code) := by
  simp only [exec, execPage, refused]

theorem exec_page_accepted (accepted : s.pageRefusal? h = none) :
    exec (.page h tag) s = .next ((s.setPage h tag).answer 5 .done) := by
  simp only [exec, execPage, accepted]

theorem State.pageRefusal?_inactive (named : h ≠ 0) (inactive : s.isActive = false) : s.pageRefusal? h = some .notActive := by
  simp only [State.pageRefusal?, badHandset_of_ne named, inactive, Bool.false_eq_true, Bool.not_false, if_false, if_true]

theorem State.pageRefusal?_unknown (named : h ≠ 0) (active : s.isActive = true) (away : s.find? h = none) :
    s.pageRefusal? h = some .notHere := by
  simp only [State.pageRefusal?, badHandset_of_ne named, active, away, Bool.false_eq_true, Bool.not_true, if_false]

/-- R99: the last two checks, of a handset held here. -/
theorem State.pageRefusal?_held (named : h ≠ 0) (active : s.isActive = true) (held : s.find? h = some (i, e)) :
    s.pageRefusal? h = if e.engaged then some .busy else if s.pageRoom h then none else some .pageFull := by
  simp only [State.pageRefusal?, badHandset_of_ne named, active, held, Entry.isIdle_eq, Bool.false_eq_true, Bool.not_true,
    Bool.not_not, if_false, Bool.not_eq_true', ← Bool.not_eq_true, ite_not]

/-- R99: a handset with a page record needs no room. -/
theorem State.pageRoom_paged {p : PageRecord} (paged : s.page? h = some p) : s.pageRoom h = true := by
  simp only [State.pageRoom, paged, Option.isSome_some, Bool.true_or]

theorem State.pageRoom_unpaged (unpaged : s.page? h = none) : s.pageRoom h = decide (s.cc.pages.length < 8) := by
  simp only [State.pageRoom, unpaged, Option.isSome_none, Bool.false_or, Config.pagePlaces]

theorem State.setPage_paged {p : PageRecord} (paged : s.page? h = some p) : s.setPage h tag = s.refreshPage h tag := by
  simp only [State.setPage, paged]

theorem State.setPage_unpaged (unpaged : s.page? h = none) : s.setPage h tag = s.addPage h tag := by
  simp only [State.setPage, unpaged]

/-- R99: the rotation cursor is set to a page that finds the list empty. -/
theorem State.addPage_eq (s : State) (h : Handset) (tag : Tag) : s.addPage h tag = { s with cc := { s.cc with
    pages := s.cc.pages ++ [{ handset := h, tag := tag, remaining := s.sc.config.pageTimeout }]
    rotation := if s.cc.pages = [] then some h else s.cc.rotation } } := by
  simp only [State.addPage, List.isEmpty_iff]

/-! ### CLEAR CALL (R104) -/

theorem exec_clearCall_outOfService (named : h ≠ 0) (outOfService : s.serving = false) :
    exec (.clearCall h) s = .next (s.answer 6 .notActive) := by
  simp only [exec, execClearCall, badHandset_of_ne named, outOfService, Bool.false_eq_true, Bool.not_false, if_false, if_true]

theorem exec_clearCall_unknown (named : h ≠ 0) (serving : s.serving = true) (away : s.find? h = none) :
    exec (.clearCall h) s = .next (s.answer 6 .notHere) := by
  simp only [exec, execClearCall, badHandset_of_ne named, serving, away, Bool.false_eq_true, Bool.not_true, if_false]

theorem exec_clearCall_held (named : h ≠ 0) (serving : s.serving = true) (held : s.find? h = some (i, e)) :
    exec (.clearCall h) s = .next (s.clearByHost i e) := by
  simp only [exec, execClearCall, badHandset_of_ne named, serving, held, Bool.false_eq_true, Bool.not_true, if_false]

/-- R104: a call in a handover is left to it. -/
theorem State.clearByHost_inTransit (transit : e.isLeaving = true ∨ e.isArriving = true) :
    s.clearByHost i e = s.answer 6 .inTransit := by
  cases phase : e.phase with
  | leaving | arriving => simp only [State.clearByHost, phase]
  | idle | setup | inCall => simp [Entry.isLeaving, Entry.isArriving, phase] at transit

theorem State.clearByHost_idle (idle : e.isIdle = true) : s.clearByHost i e = s.answer 6 .noCall := by
  cases phase : e.phase with
  | idle => simp only [State.clearByHost, phase]
  | setup | inCall | leaving | arriving => simp [Entry.isIdle, phase] at idle

theorem State.clearByHost_call (phase : e.phase = .setup c tag k ∨ e.phase = .inCall c tag k) :
    s.clearByHost i e = (s.clearTheCall i e .host).answer 6 .done := by
  rcases phase with phase | phase <;> simp only [State.clearByHost, phase]

/-! ### LOCATE (R87) -/

theorem exec_locate_inactive (named : h ≠ 0) (inactive : s.isActive = false) :
    exec (.locate h) s = .next (s.answer 7 .notActive) := by
  simp only [exec, execLocate, badHandset_of_ne named, inactive, Bool.false_eq_true, Bool.not_false, if_false, if_true]

theorem exec_locate_held (named : h ≠ 0) (active : s.isActive = true) (held : s.find? h = some (i, e)) :
    exec (.locate h) s = .next ((s.locatedHere e).answer 7 .done) := by
  simp only [exec, execLocate, badHandset_of_ne named, active, held, Bool.false_eq_true, Bool.not_true, if_false]

theorem exec_locate_unknown (named : h ≠ 0) (active : s.isActive = true) (away : s.find? h = none) :
    exec (.locate h) s = .next (if (s.findFor h).isSome then s.answer 7 .already else s.beginFind h) := by
  simp only [exec, execLocate, badHandset_of_ne named, active, away, Bool.false_eq_true, Bool.not_true, if_false]

theorem State.beginFind_full (full : s.freeFind = none) : s.beginFind h = s.answer 7 .findFull := by
  simp only [State.beginFind, full]

theorem State.beginFind_free {r : Nat} (free : s.freeFind = some r) : s.beginFind h =
    if s.admits (s.findNotice h) then (s.startFind h r).answer 7 .done else s.answer 7 .queuePressed := by
  simp only [State.beginFind, free]

/-- R87: an admitted FIND; the offer leaves the find records and the count of free values as they are. -/
theorem State.startFind_eq (s : State) (h : Handset) (r : Nat) : s.startFind h r =
    { s.offer (s.findNotice h) with
      rc := { s.rc with
        findNumber := s.rc.findNumber + 1
        finds := s.rc.finds.setIfInBounds r (some {
          handset := h, number := s.rc.findNumber, remaining := s.sc.config.findWindow, answer := none }) }
      drawn := s.drawn + 1 } := by
  have registry : (s.offer (s.findNotice h)).rc = s.rc := by simp
  have count : (s.offer (s.findNotice h)).drawn = s.drawn := by simp
  simp only [State.startFind, State.setFind, registry, count]

end

/-- Settles O47: the checks of each command in their order, and what it does when they pass. -/
theorem pageClearAndLocate : Obligations.PageClearAndLocate := by
  refine ⟨fun h tag s => ⟨fun zero => ?_, fun named inactive => ?_, fun named active away => ?_,
      fun i e named active held => ?_⟩,
    fun h s => ⟨fun zero => ?_, exec_clearCall_outOfService, exec_clearCall_unknown, fun i e named serving held => ?_⟩,
    fun h s => ⟨fun zero => ?_, fun named inactive => ?_, fun i e named active held => ?_, fun named active away => ?_⟩,
    fun h s => ⟨(s.findNotice h).stamp, rfl⟩⟩
  · subst zero
    rfl
  · exact exec_page_refused (State.pageRefusal?_inactive named (State.isActive_of_ne inactive))
  · exact exec_page_refused (State.pageRefusal?_unknown named (s.isActive_iff.mpr active) away)
  · have checks := State.pageRefusal?_held named (s.isActive_iff.mpr active) held
    refine ⟨fun engaged => ?_, fun p idle paged => ?_, fun idle unpaged full => ?_, fun idle unpaged room => ?_⟩
    · rw [if_pos engaged] at checks
      exact exec_page_refused checks
    · rw [if_neg (by simp [idle]), if_pos (State.pageRoom_paged paged)] at checks
      rw [exec_page_accepted checks, State.setPage_paged paged]
      rfl
    · rw [if_neg (by simp [idle]), State.pageRoom_unpaged unpaged, if_neg (by simpa using full)] at checks
      exact exec_page_refused checks
    · rw [if_neg (by simp [idle]), State.pageRoom_unpaged unpaged, if_pos (by simpa using room)] at checks
      rw [exec_page_accepted checks, State.setPage_unpaged unpaged, State.addPage_eq]
  · subst zero
    rfl
  · obtain ⟨-, entry, same⟩ := State.find?_some held
    rw [exec_clearCall_held named serving held]
    refine ⟨fun transit => ?_, fun idle => ?_, fun c t k phase => ?_⟩
    · rw [State.clearByHost_inTransit transit]
    · rw [State.clearByHost_idle idle]
    · have cell : e.cell? = some c := by rcases phase with phase | phase <;> simp only [Entry.cell?, phase]
      have carried : e.tag = t := by rcases phase with phase | phase <;> simp only [Entry.tag, phase]
      rw [State.clearByHost_call phase, State.clearTheCall_eq entry cell, same, carried]
  · subst zero
    rfl
  · exact exec_locate_inactive named (State.isActive_of_ne inactive)
  · obtain ⟨-, -, same⟩ := State.find?_some held
    rw [exec_locate_held named (s.isActive_iff.mpr active) held, State.locatedHere, same]
    rfl
  · rw [exec_locate_unknown named (s.isActive_iff.mpr active) away]
    refine ⟨fun runs => ?_, fun none full => ?_, fun r none free => ?_⟩
    · rw [if_pos (Option.isSome_iff_ne_none.mpr runs)]
    · rw [if_neg (by simp [none]), State.beginFind_full full]
    · rw [if_neg (by simp [none]), State.beginFind_free free]
      refine ⟨fun refused => ?_, fun admitted => ?_⟩
      · rw [if_neg (by simp [refused])]
      · rw [if_pos admitted, State.startFind_eq]

end Sys2Proof.Machine
end

section
/-! Admission to the transmit queue (chapter 7), against its rules. -/
namespace Sys2Proof.Machine

/-- The first place of a list that a test picks, by what the places hold. -/
theorem findIdx?_eq_some_iff_getElem? {α : Type} {l : List α} {p : α → Bool} {k : Nat} :
    l.findIdx? p = some k ↔ (∃ a, l[k]? = some a ∧ p a = true) ∧ ∀ j a, j < k → l[j]? = some a → p a = false := by
  rw [List.findIdx?_eq_some_iff_getElem]
  constructor
  · rintro ⟨hk, picked, before⟩
    refine ⟨⟨l[k], List.getElem?_eq_getElem hk, picked⟩, fun j a hj place => ?_⟩
    obtain ⟨bound, rfl⟩ := List.getElem?_eq_some_iff.mp place
    exact Bool.eq_false_iff.mpr (before j hj)
  · rintro ⟨⟨a, place, picked⟩, before⟩
    obtain ⟨hk, rfl⟩ := List.getElem?_eq_some_iff.mp place
    refine ⟨hk, picked, fun j hj => ?_⟩
    exact Bool.eq_false_iff.mp (before j _ hj (List.getElem?_eq_getElem (hj.trans hk)))

section
variable {s : State} {n : Notice}

/-! ### The decision (R115, R117) -/

theorem State.admission_notServing (out : s.serving = false) : s.admission n = .refused .notServing := by
  simp only [State.admission, out, Bool.not_false, if_true]

theorem State.admission_pressed (serving : s.serving = true) (enquiry : n.kindClass = .enquiry)
    (pressed : s.bus.mode = .pressed) : s.admission n = .refused .pressed := by
  simp [State.admission, serving, enquiry, pressed]

theorem State.admission_coalesced (serving : s.serving = true) (fit : ¬(n.kindClass = .enquiry ∧ s.bus.mode = .pressed))
    {k : Nat} (place : s.coalescePlace? n = some k) : s.admission n = .coalesced k := by
  have unpressed : (n.kindClass == .enquiry && s.bus.mode == .pressed) = false := by simpa using fit
  simp only [State.admission, serving, unpressed, place, Bool.not_true, Bool.false_eq_true, if_false]

theorem State.admission_alone (serving : s.serving = true) (fit : ¬(n.kindClass = .enquiry ∧ s.bus.mode = .pressed))
    (alone : s.coalescePlace? n = none) : s.admission n = s.plainAdmission n := by
  have unpressed : (n.kindClass == .enquiry && s.bus.mode == .pressed) = false := by simpa using fit
  simp only [State.admission, serving, unpressed, alone, Bool.not_true, Bool.false_eq_true, if_false]

/-- R115: a completion notice has all 16 places, any other the first 14. -/
theorem State.plainAdmission_eq (s : State) (n : Notice) : s.plainAdmission n =
    if s.bus.queue.length < (if n.kindClass = .completion then 16 else 14) then .appended else .refused .full := by
  unfold State.plainAdmission State.occupancy Config.queuePlaces Config.queueShared
  by_cases completion : n.kindClass = .completion
  · by_cases room : s.bus.queue.length < 16 <;> simp [completion, room]
  · by_cases room : s.bus.queue.length < 14 <;> simp [completion, room]

/-! ### What follows from it (R115 to R117) -/

theorem State.offer_refused {r : NoticeRefusal} (refused : s.admission n = .refused r) (serving : r ≠ .notServing) :
    s.admits n = false ∧ s.offer n = if n.isHere then s.count .enquiriesDropped else s := by
  cases r with
  | notServing => exact absurd rfl serving
  | pressed | full => simp only [State.admits, State.offer, refused, and_self]

theorem State.offer_notServing (out : s.serving = false) : s.admits n = false ∧ s.offer n = s := by
  simp only [State.admits, State.offer, State.admission_notServing out, and_self]

theorem State.offer_coalesced {k : Nat} (coalesced : s.admission n = .coalesced k) :
    s.admits n = true ∧ s.offer n = { s with bus := s.bus.coalesce k n } := by
  simp only [State.admits, State.offer, coalesced, and_self]

theorem State.offer_appended (appended : s.admission n = .appended) :
    s.admits n = true ∧ s.offer n = { s with bus := s.bus.append n } := by
  simp only [State.admits, State.offer, appended, and_self]

/-! ### The place of a coalescing notice (R117) -/

theorem State.coalescePlace?_some_iff (s : State) (n : Notice) (k : Nat) : s.coalescePlace? n = some k ↔
    (∃ q, s.bus.queue[k]? = some q ∧ q.inTransmission = false ∧ n.coalescesWith q.notice = true)
    ∧ ∀ j q, j < k → s.bus.queue[j]? = some q → q.inTransmission = true ∨ n.coalescesWith q.notice = false := by
  simp only [State.coalescePlace?, findIdx?_eq_some_iff_getElem?, Bool.and_eq_true, Bool.not_eq_true', Bool.and_eq_false_iff,
    Bool.not_eq_false']

theorem Notice.coalescesWith_iff (n m : Notice) : n.coalescesWith m = true ↔
    n.handset = m.handset
    ∧ ((∃ a b, n.body = .claim a ∧ m.body = .claim b)
      ∨ ((∃ k o f k' o' f', n.body = .offer k o f ∧ m.body = .offer k' o' f') ∧ n.dest = m.dest)
      ∨ ((∃ k f k' f', n.body = .here k f ∧ m.body = .here k' f') ∧ n.dest = m.dest)) := by
  unfold Notice.coalescesWith
  split
  case h_1 a b claims claims' => simp [claims, claims']
  case h_2 k o f k' o' f' offers offers' => simp [offers, offers']
  case h_3 k f k' f' here here' => simp [here, here']
  case h_4 noClaims noOffers noHere =>
    refine iff_of_false (by simp) ?_
    rintro ⟨-, ⟨a, b, g, h⟩ | ⟨⟨k, o, f, k', o', f', g, h⟩, -⟩ | ⟨⟨k, f, k', f', g, h⟩, -⟩⟩
    · exact noClaims a b g h
    · exact noOffers k o f k' o' f' g h
    · exact noHere k f k' f' g h

/-! ### The CLAIM of an entry (R86, R118) -/

theorem State.offerClaim_eq {i : Nat} {e : Entry} (entry : s.entry? i = some e) :
    s.offerClaim i = (s.offer (s.claimOf e)).setEntry i (some { e with claimOwed := !s.admits (s.claimOf e) }) := by
  have kept : (s.offer (s.claimOf e)).entry? i = some e := by rw [(s.reads_offer _).1, entry]
  simp only [State.offerClaim, entry, State.modifyEntry_some _ _ _ _ kept]

end

/-- Settles O39: the cases of the admission decision in their order, the place of a coalescing notice, and the offered CLAIM. -/
theorem noticeAdmission : Obligations.NoticeAdmission := by
  refine ⟨fun n s => State.offer_notServing, fun n s serving enquiry pressed => ?_, fun n s serving fit => ?_,
    fun n k s => s.coalescePlace?_some_iff n k, Notice.coalescesWith_iff, ?_⟩
  · exact State.offer_refused (State.admission_pressed serving enquiry pressed) (by simp)
  · refine ⟨fun k place => State.offer_coalesced (State.admission_coalesced serving fit place), fun alone room => ?_,
      fun alone full => ?_⟩
    · exact State.offer_appended (by rw [State.admission_alone serving fit alone, s.plainAdmission_eq, if_pos room])
    · have refused : s.admission n = .refused .full := by
        rw [State.admission_alone serving fit alone, s.plainAdmission_eq, if_neg (Nat.not_lt.mpr full)]
      exact State.offer_refused refused (by simp)
  · rintro i e n s entry rfl
    exact State.offerClaim_eq entry

end Sys2Proof.Machine
end

section
/-! A notice sent, the fall in occupancy with the owed CLAIMs it offers, and yielding (chapter 7), against their rules. -/
namespace Sys2Proof.Machine

/-! ### The idle watch (R111, R113) -/

theorem Transmitter.driving_iff (tx : Transmitter) : tx.driving = true ↔ tx ≠ .waiting := by
  cases tx <;> simp [Transmitter.driving]

theorem State.advanceIdle_driving {s : State} (driving : s.bus.tx ≠ .waiting) (idle : Nat) : s.advanceIdle idle = s :=
  if_pos (s.bus.tx.driving_iff.mpr driving)

theorem State.advanceIdle_waiting {s : State} (waiting : s.bus.tx = .waiting) (idle : Nat) :
    s.advanceIdle idle = { s with bus := { s.bus with
      idle := s.bus.idle + idle
      yieldCount := if s.sc.config.yieldBurst ≤ s.bus.yieldCount ∧ s.sc.config.yieldTime ≤ s.bus.idle + idle then 0
        else s.bus.yieldCount } } :=
  if_neg (by simp [waiting, Transmitter.driving])

/-! ### The mode after a fall (R116) -/

/-- The first part of what follows a fall in occupancy: the mode. -/
def State.modeFell (s : State) : State :=
  { s with bus := { s.bus with mode := if s.bus.queue.length ≤ 8 then .opened else s.bus.mode } }

theorem State.occupancyFell_eq (s : State) : s.occupancyFell = readmitFrom (List.range 64) s.modeFell := rfl

theorem State.modeFell_opened (s : State) : s.modeFell.bus.queue.length ≤ 8 → s.modeFell.bus.mode = .opened := fun low =>
  if_pos low

theorem State.modeFell_of_opened {s : State} (opened : s.bus.queue.length ≤ 8 → s.bus.mode = .opened) : s.modeFell = s := by
  have same : (if s.bus.queue.length ≤ 8 then .opened else s.bus.mode) = s.bus.mode := by
    split
    · exact (opened ‹_›).symm
    · rfl
  simp only [State.modeFell, same]

/-- An offered notice leaves a queue at 8 or below open. -/
theorem State.offer_opened {s : State} (opened : s.bus.queue.length ≤ 8 → s.bus.mode = .opened) (n : Notice) :
    (s.offer n).bus.queue.length ≤ 8 → (s.offer n).bus.mode = .opened := by
  obtain ⟨-, e | e⟩ | ⟨-, k, -, e⟩ | ⟨-, -, e⟩ := s.offer_cases n <;> rw [e]
  · exact opened
  · simpa using opened
  · simpa [Bus.coalesce] using opened
  · intro low
    have short : s.bus.queue.length + 1 ≤ 8 := by simpa [Bus.append] using low
    have below : ¬12 ≤ s.bus.queue.length + 1 := by omega
    simp only [Bus.append, modeAfterRise, Config.pressedAt, if_neg below, opened (by omega)]

/-! ### Owed CLAIMs (R119) -/

/-- The entry at a table index, if there is one, owes no CLAIM. -/
def State.OwesNone (s : State) (i : Nat) : Prop := ∀ e, s.entry? i = some e → e.claimOwed = false

/-- A CLAIM that is admitted is owed no longer, and what others owe stays. -/
theorem State.owesNone_offerClaim {s : State} {i : Nat} {e : Entry} (entry : s.entry? i = some e)
    (admitted : s.admits (s.claimOf e) = true) {j : Nat} (h : j = i ∨ s.OwesNone j) : (s.offerClaim i).OwesNone j := by
  intro f found
  rw [s.entry?_offerClaim i j] at found
  split at found
  · rw [entry, Option.map_some, Option.some.injEq] at found
    simp [← found, admitted]
  · rename_i other
    exact h.resolve_left other f found

/-- One table index of the re-admission: it owes nothing afterwards, or its CLAIM is refused and all stays. -/
theorem readmitFrom_cons_cases (i : Nat) (l : List Nat) (s : State) :
    (∃ t, readmitFrom (i :: l) s = readmitFrom l t ∧ t.OwesNone i ∧ ∀ j, s.OwesNone j → t.OwesNone j)
    ∨ (∃ e, s.entry? i = some e ∧ e.claimOwed = true ∧ s.admits (s.claimOf e) = false ∧ readmitFrom (i :: l) s = s) := by
  rw [readmitFrom.eq_def]
  cases entry : s.entry? i with
  | none => exact Or.inl ⟨s, by simp [entry], fun e h => by simp [entry] at h, fun _ => id⟩
  | some e =>
    cases owed : e.claimOwed with
    | false =>
      have nothing : s.OwesNone i := fun f found => Option.some.inj (entry.symm.trans found) ▸ owed
      exact Or.inl ⟨s, by simp [entry, owed], nothing, fun _ => id⟩
    | true =>
      cases decision : s.admits (s.claimOf e) with
      | false => exact Or.inr ⟨e, rfl, owed, decision, by simp [entry, owed, decision]⟩
      | true =>
        exact Or.inl ⟨s.offerClaim i, by simp [entry, owed, decision], State.owesNone_offerClaim entry decision (Or.inl rfl),
          fun j h => State.owesNone_offerClaim entry decision (Or.inr h)⟩

theorem readmitFrom_owesNone {l : List Nat} {s : State} {j : Nat} (h : s.OwesNone j) : (readmitFrom l s).OwesNone j := by
  induction l generalizing s with
  | nil => exact h
  | cons i l ih =>
    obtain ⟨t, next, -, kept⟩ | ⟨e, -, -, -, stays⟩ := readmitFrom_cons_cases i l s
    · rw [next]
      exact ih (kept j h)
    · rw [stays]
      exact h

/-- Where re-admission leaves an index owing, the lowest such index is the one whose CLAIM was refused. -/
theorem readmitFrom_refuses {l : List Nat} (ascending : l.Pairwise (· < ·)) {s : State} {i : Nat} {e : Entry} (member : i ∈ l)
    (entry : (readmitFrom l s).entry? i = some e) (owed : e.claimOwed = true)
    (lowest : ∀ j, j < i → (readmitFrom l s).OwesNone j) :
    (readmitFrom l s).admits ((readmitFrom l s).claimOf e) = false := by
  induction l generalizing s with
  | nil => cases member
  | cons k l ih =>
    obtain ⟨above, ascending⟩ := List.pairwise_cons.mp ascending
    obtain ⟨t, next, settled, -⟩ | ⟨f, first, owes, refused, stays⟩ := readmitFrom_cons_cases k l s
    · rw [next] at entry lowest ⊢
      obtain rfl | member := List.mem_cons.mp member
      · exact absurd owed (by simp [readmitFrom_owesNone settled e entry])
      · exact ih ascending member entry lowest
    · rw [stays] at entry lowest ⊢
      obtain rfl | member := List.mem_cons.mp member
      · rw [Option.some.inj (entry.symm.trans first), refused]
      · exact absurd owes (by simp [lowest k (above i member) f first])

/-- The owed CLAIM of the lowest index is the first that re-admission comes to. -/
theorem readmitFrom_range {i : Nat} (index : i < 64) : ∃ rest, ∀ s : State, (∀ j, j < i → s.OwesNone j) →
    readmitFrom (List.range 64) s = readmitFrom (i :: rest) s := by
  have split : List.range 64 = List.range i ++ i :: (List.range (63 - i)).map (i + 1 + ·) := by
    rw [show 64 = i + 1 + (63 - i) by omega, List.range_add, List.range_succ, List.append_assoc]
    rfl
  exact ⟨_, fun s lower => split ▸ readmitFrom_skip _ _ s fun j member => lower j (List.mem_range.mp member)⟩

theorem readmitFrom_admitted {s : State} {i : Nat} {e : Entry} (entry : s.entry? i = some e) (owed : e.claimOwed = true)
    (admitted : s.admits (s.claimOf e) = true) (l : List Nat) : readmitFrom (i :: l) s = readmitFrom l (s.offerClaim i) := by
  simp only [readmitFrom, entry, owed, admitted, if_true]

theorem readmitFrom_refused {s : State} {i : Nat} {e : Entry} (entry : s.entry? i = some e) (owed : e.claimOwed = true)
    (refused : s.admits (s.claimOf e) = false) (l : List Nat) : readmitFrom (i :: l) s = s := by
  simp only [readmitFrom, entry, owed, refused, if_true, Bool.false_eq_true, if_false]

section
variable {s : State} {i : Nat} {e : Entry}

/-- R119: after an owed CLAIM that is admitted, the fall goes on as one from the state with that CLAIM in the queue. -/
theorem State.occupancyFell_admitted (entry : s.entry? i = some e) (owed : e.claimOwed = true)
    (lower : ∀ j, j < i → s.OwesNone j) (admitted : s.modeFell.admits (s.modeFell.claimOf e) = true) :
    s.occupancyFell = (s.modeFell.offerClaim i).occupancyFell := by
  obtain ⟨rest, skip⟩ := readmitFrom_range (State.entry?_lt entry)
  have entry' : s.modeFell.entry? i = some e := entry
  have kept : (s.modeFell.offerClaim i).modeFell = s.modeFell.offerClaim i := by
    refine State.modeFell_of_opened ?_
    rw [State.offerClaim_eq entry']
    exact State.offer_opened s.modeFell_opened _
  have settled : ∀ j, j = i ∨ s.modeFell.OwesNone j → (s.modeFell.offerClaim i).OwesNone j := fun j =>
    State.owesNone_offerClaim entry' admitted
  calc s.occupancyFell
      = readmitFrom (i :: rest) s.modeFell := skip s.modeFell lower
    _ = readmitFrom rest (s.modeFell.offerClaim i) := readmitFrom_admitted entry' owed admitted rest
    _ = readmitFrom (i :: rest) (s.modeFell.offerClaim i) :=
      (readmitFrom_skip [i] rest _ fun j member => settled j (Or.inl (List.mem_singleton.mp member))).symm
    _ = readmitFrom (List.range 64) (s.modeFell.offerClaim i) := (skip _ fun j below => settled j (Or.inr (lower j below))).symm
    _ = (s.modeFell.offerClaim i).occupancyFell := by rw [State.occupancyFell_eq, kept]

theorem State.occupancyFell_refused (entry : s.entry? i = some e) (owed : e.claimOwed = true)
    (lower : ∀ j, j < i → s.OwesNone j) (refused : s.modeFell.admits (s.modeFell.claimOf e) = false) :
    s.occupancyFell = s.modeFell := by
  obtain ⟨rest, skip⟩ := readmitFrom_range (State.entry?_lt entry)
  have entry' : s.modeFell.entry? i = some e := entry
  calc s.occupancyFell
      = readmitFrom (i :: rest) s.modeFell := skip s.modeFell lower
    _ = s.modeFell := readmitFrom_refused entry' owed refused rest

end

/-! ### The end of a transmission (R112) -/

theorem exec_noticeSent_waiting {s : State} (waiting : s.bus.tx = .waiting) : exec .noticeSent s = .next s :=
  congrArg Host.Outcome.next (if_neg (by simp [waiting, Transmitter.driving]))

theorem exec_noticeSent_driving {s : State} (driving : s.bus.tx ≠ .waiting) : exec .noticeSent s = .next s.finishNotice :=
  congrArg Host.Outcome.next (if_pos (s.bus.tx.driving_iff.mpr driving))

/-- The first notice in transmission is the one that leaves the queue. -/
theorem eraseP_inTransmission {before : List QueuedNotice} {q : QueuedNotice} (waiting : ∀ p ∈ before, p.inTransmission = false)
    (sent : q.inTransmission = true) (after : List QueuedNotice) :
    (before ++ q :: after).eraseP (·.inTransmission) = before ++ after := by
  rw [List.eraseP_append_right _ fun p member => by simp [waiting p member], List.eraseP_cons_of_pos sent]

/-- Settles O37: the notice sent, then the fall by the lowest owed CLAIM and its decision, then the idle watch. -/
theorem noticeSentAndYielding : Obligations.NoticeSentAndYielding := by
  refine ⟨fun before after q s driving queue waiting sent => ?_, fun s nothing => readmitFrom_none _ s.modeFell nothing,
    fun s i e entry owed lower => ?_, ?_, fun idle s waiting => ?_, fun s => exec_noticeSent_waiting,
    fun idle s driving => ?_⟩
  · rw [exec_noticeSent_driving driving, State.finishNotice, queue, eraseP_inTransmission waiting sent]
  · exact readmitFrom_refuses List.pairwise_lt_range (List.mem_range.mpr (State.entry?_lt entry)) entry owed
      fun j below f => lower j f below
  · rintro s u i e rfl entry owed lower
    have lower' : ∀ j, j < i → s.OwesNone j := fun j below f => lower j f below
    exact ⟨State.occupancyFell_admitted entry owed lower', State.occupancyFell_refused entry owed lower'⟩
  · exact congrArg Host.Outcome.next (State.advanceIdle_waiting waiting idle)
  · exact congrArg Host.Outcome.next (State.advanceIdle_driving driving idle)

end Sys2Proof.Machine
end

section
/-! The beginning of a notice and the loss of contention (chapter 7), against their rules. -/
namespace Sys2Proof.Machine

section
variable {s : State} {k : Nat} {q : QueuedNotice}

/-! ### The choice (R114) -/

/-- The oldest notice of a class is its first in the queue. -/
theorem State.oldestOf_first (place : s.bus.queue[k]? = some q)
    (first : ∀ j p, j < k → s.bus.queue[j]? = some p → p.notice.kindClass ≠ q.notice.kindClass) :
    s.oldestOf q.notice.kindClass = some k :=
  findIdx?_eq_some_iff_getElem?.mpr ⟨⟨q, place, beq_self_eq_true _⟩, fun j p below h => beq_false_of_ne (first j p below h)⟩

theorem State.oldestOf_absent {c : NoticeClass} (absent : ∀ p ∈ s.bus.queue, p.notice.kindClass ≠ c) : s.oldestOf c = none :=
  List.findIdx?_eq_none_iff.mpr fun p member => beq_false_of_ne (absent p member)

/-- The notice to send is the oldest of the first class present. -/
theorem State.choice?_first (place : s.bus.queue[k]? = some q)
    (first : ∀ j p, j < k → s.bus.queue[j]? = some p → p.notice.kindClass ≠ q.notice.kindClass)
    (urgent : q.notice.kindClass = .completion ∨ ((∀ p ∈ s.bus.queue, p.notice.kindClass ≠ .completion)
      ∧ (q.notice.kindClass = .protocol ∨ ∀ p ∈ s.bus.queue, p.notice.kindClass ≠ .protocol))) :
    s.choice? = some k := by
  have oldest := State.oldestOf_first place first
  obtain completion | ⟨noCompletion, rest⟩ := urgent
  · simp only [State.choice?, ← completion, oldest, Option.some_or]
  · have member := List.mem_of_getElem? place
    obtain protocol | noProtocol := rest
    · simp only [State.choice?, State.oldestOf_absent noCompletion, ← protocol, oldest, Option.none_or, Option.some_or]
    · have enquiry : q.notice.kindClass = .enquiry := by
        cases kind : q.notice.kindClass with
        | completion => exact absurd kind (noCompletion q member)
        | protocol => exact absurd kind (noProtocol q member)
        | enquiry => rfl
      simp only [State.choice?, State.oldestOf_absent noCompletion, State.oldestOf_absent noProtocol, ← enquiry, oldest,
        Option.none_or]

theorem State.choice?_empty (empty : s.bus.queue = []) : s.choice? = none := by
  have absent (c : NoticeClass) : s.oldestOf c = none := State.oldestOf_absent (by simp [empty])
  simp only [State.choice?, absent, Option.none_or]

/-! ### The beginning (R111, R113) -/

theorem State.mayBegin_iff (s : State) : s.mayBegin = true ↔
    s.bus.tx = .waiting ∧ s.bus.yieldCount < s.sc.config.yieldBurst ∧ s.serving = true ∧ 16 ≤ s.bus.idle := by
  have notDriving : s.bus.tx.driving = false ↔ s.bus.tx = .waiting := by
    rw [← Bool.not_eq_true, s.bus.tx.driving_iff, not_not]
  simp only [State.mayBegin, State.yielding, Config.contentionIdle, Bool.and_eq_true, Bool.not_eq_true', notDriving,
    decide_eq_false_iff_not, decide_eq_true_eq, not_le, and_assoc]

/-- After the idle bit times: the yielding has ended, or never began. -/
theorem State.mayBegin_advanceIdle (waiting : s.bus.tx = .waiting) (idle : Nat) : (s.advanceIdle idle).mayBegin = true ↔
    (s.bus.yieldCount < s.sc.config.yieldBurst
      ∨ (s.sc.config.yieldTime ≤ s.bus.idle + idle ∧ 1 ≤ s.sc.config.yieldBurst))
    ∧ s.serving = true ∧ 16 ≤ s.bus.idle + idle := by
  have count : (if s.sc.config.yieldBurst ≤ s.bus.yieldCount ∧ s.sc.config.yieldTime ≤ s.bus.idle + idle then 0
      else s.bus.yieldCount) < s.sc.config.yieldBurst ↔ s.bus.yieldCount < s.sc.config.yieldBurst
        ∨ (s.sc.config.yieldTime ≤ s.bus.idle + idle ∧ 1 ≤ s.sc.config.yieldBurst) := by
    split <;> omega
  rw [State.advanceIdle_waiting waiting, State.mayBegin_iff, ← count]
  exact and_iff_right waiting

theorem State.choice?_advanceIdle (waiting : s.bus.tx = .waiting) (idle : Nat) : (s.advanceIdle idle).choice? = s.choice? := by
  rw [State.advanceIdle_waiting waiting]
  rfl

theorem State.tryBegin_begins (may : s.mayBegin = true) (chosen : s.choice? = some k) (place : s.bus.queue[k]? = some q)
    (through : Bool) : s.tryBegin through = s.beginNotice k through q.notice := by
  simp only [State.tryBegin, may, chosen, place, if_true]

theorem State.tryBegin_refrains (h : s.mayBegin = false ∨ s.choice? = none) (through : Bool) : s.tryBegin through = s := by
  obtain mayNot | noneChosen := h
  · simp only [State.tryBegin, mayNot, Bool.false_eq_true, if_false]
  · simp only [State.tryBegin, noneChosen, ite_self]

/-- With no notice begun, NOTICE_BEGIN lets the idle bit times pass. -/
theorem exec_noticeBegin_refrains {idle : Nat}
    (h : (s.advanceIdle idle).mayBegin = false ∨ (s.advanceIdle idle).choice? = none) (through : Bool) :
    exec (.noticeBegin idle through) s = .next (s.advanceIdle idle) :=
  congrArg Host.Outcome.next (State.tryBegin_refrains h through)

/-! ### The loss of contention (R111, R120) -/

theorem exec_contentionLost_contending {w : NoticeWord} (contending : s.bus.tx = .contending w) (bit : Fin 10) :
    exec (.contentionLost bit) s = .next (if w.getMsbD bit.val then s.loseContention else s) := by
  simp only [exec, execContentionLost, contending]

theorem exec_contentionLost_other (other : ∀ w, s.bus.tx ≠ .contending w) (bit : Fin 10) :
    exec (.contentionLost bit) s = .next s := by
  simp only [exec, execContentionLost]
  cases tx : s.bus.tx with
  | contending w => exact absurd tx (other w)
  | waiting | sending w => rfl

/-- The part gives way: its notice waits again in its place, or has left the queue. -/
def State.gaveWay (s : State) : State :=
  State.count { s with bus := { s.bus with
    queue := (s.bus.queue.filter fun q => !(q.inTransmission && q.condemned)).map fun q => { q with inTransmission := false }
    tx := .waiting, idle := 0 } } .contentionLosses

theorem State.loseContention_eq (s : State) : s.loseContention =
    if s.bus.queue.any fun q => q.inTransmission && q.condemned then s.gaveWay.occupancyFell else s.gaveWay := rfl

theorem State.loseContention_waits (sound : ∀ q ∈ s.bus.queue, q.condemned = false) : s.loseContention = s.gaveWay := by
  rw [s.loseContention_eq, if_neg]
  simp only [List.any_eq_true, Bool.and_eq_true, not_exists, not_and]
  exact fun p member _ condemned => absurd condemned (by simp [sound p member])

theorem State.loseContention_leaves (leaves : ∃ q ∈ s.bus.queue, q.inTransmission = true ∧ q.condemned = true) :
    s.loseContention = s.gaveWay.occupancyFell := by
  rw [s.loseContention_eq, if_pos]
  simpa only [List.any_eq_true, Bool.and_eq_true] using leaves

end

/-- Settles O36: the idle watch first, then whether a notice may begin and which; contention by what the bit was. -/
theorem noticeBeginsAndMayLose : Obligations.NoticeBeginsAndMayLose := by
  refine ⟨fun idle through k q s waiting serving longIdle burst unyielding place first urgent => ?_,
    fun bit w s t contending recessive ht => ?_, fun idle through s driving => ?_, fun idle through s waiting cause => ?_,
    fun bit s => ⟨fun other => exec_contentionLost_other other bit, fun w contending dominant => ?_⟩⟩
  · have may := (State.mayBegin_advanceIdle waiting idle).mpr
      ⟨unyielding.imp_right fun passed => ⟨passed, burst⟩, serving, longIdle⟩
    have chosen := (State.choice?_advanceIdle waiting idle).trans (State.choice?_first place first urgent)
    have count : (if s.sc.config.yieldBurst ≤ s.bus.yieldCount ∧ s.sc.config.yieldTime ≤ s.bus.idle + idle then 0
        else s.bus.yieldCount) = if s.sc.config.yieldBurst ≤ s.bus.yieldCount then 0 else s.bus.yieldCount := by
      split <;> split <;> omega
    have idled := State.advanceIdle_waiting waiting idle
    rw [count] at idled
    have place' : (s.advanceIdle idle).bus.queue[k]? = some q := idled ▸ place
    refine congrArg Host.Outcome.next ((State.tryBegin_begins may chosen place' through).trans ?_)
    rw [idled]
    rfl
  · obtain rfl : t = s.gaveWay := ht
    rw [exec_contentionLost_contending contending, if_pos recessive]
    exact ⟨fun sound => congrArg Host.Outcome.next (State.loseContention_waits sound),
      fun leaves => congrArg Host.Outcome.next (State.loseContention_leaves leaves)⟩
  · have stays := State.advanceIdle_driving driving idle
    have mayNot : s.mayBegin = false := Bool.eq_false_iff.mpr fun may => driving (s.mayBegin_iff.mp may).1
    rw [exec_noticeBegin_refrains (Or.inl (stays.symm ▸ mayNot)), stays]
  · have idled := State.advanceIdle_waiting waiting idle
    rw [← idled]
    refine exec_noticeBegin_refrains ?_ through
    have refrains : ¬(s.advanceIdle idle).mayBegin = true →
        (s.advanceIdle idle).mayBegin = false ∨ (s.advanceIdle idle).choice? = none := fun h =>
      Or.inl (Bool.eq_false_iff.mpr h)
    rw [State.mayBegin_advanceIdle waiting idle] at refrains
    obtain short | outOfService | empty | ⟨burst, early⟩ := cause
    · exact refrains fun may => by omega
    · exact refrains fun may => by simp [outOfService] at may
    · exact Or.inr ((State.choice?_advanceIdle waiting idle).trans (State.choice?_empty empty))
    · exact refrains fun may => by omega
  · rw [exec_contentionLost_contending contending, if_neg (by simp [dominant])]

end Sys2Proof.Machine
end

section
/-! A notice heard on the bus, by what the station makes of it (chapter 7), against its rules. -/
namespace Sys2Proof.Machine

section
variable {s : State} {length : Nat} {w : NoticeWord} {n : Notice}

/-! ### Before the notice is read (R121) -/

theorem State.hearNotice_deaf (deaf : s.joined = false ∨ s.bus.tx ≠ .waiting) : s.hearNotice length w = s := by
  obtain unjoined | driving := deaf
  · simp only [State.hearNotice, unjoined, Bool.not_false, if_true]
  · simp only [State.hearNotice, s.bus.tx.driving_iff.mpr driving, if_true, ite_self]

theorem State.hearNotice_listening (joined : s.joined = true) (waiting : s.bus.tx = .waiting) :
    s.hearNotice length w = s.hearWord length w := by
  simp only [State.hearNotice, joined, waiting, Transmitter.driving, Bool.not_true, Bool.false_eq_true, if_false]

theorem State.hearWord_discards (bad : length < 112 ∨ checkPasses w = false ∨ wordSender w = s.sc.config.stationNumber) :
    s.hearWord length w = s.count .noticesDiscarded := by
  obtain short | failed | own := bad
  · simp only [State.hearWord, if_pos short]
  · simp only [State.hearWord, failed, Bool.not_false, if_true, ite_self]
  · have own' : wordSender w = s.stationNumber := own
    simp only [State.hearWord, own', if_true, ite_self]

/-- A whole notice of another station, with its check passed. -/
theorem State.hearWord_reads (whole : 112 ≤ length) (passed : checkPasses w = true)
    (another : wordSender w ≠ s.sc.config.stationNumber) :
    s.hearWord length w = (Notice.decode w).elim (s.heardAnother.count .noticesDiscarded) s.heardAnother.receive := by
  have another' : wordSender w ≠ s.stationNumber := another
  simp only [State.hearWord, if_neg (Nat.not_lt.mpr whole), passed, Bool.not_true, Bool.false_eq_true, if_false,
    if_neg another']
  cases Notice.decode w <;> rfl

/-! ### The notice that is read (R122, R191) -/

theorem State.passesOver_iff (s : State) (n : Notice) : s.passesOver n = true ↔
    n.isReply = true ∧ n.dest ≠ 0 ∧ n.dest ≠ s.sc.config.stationNumber := by
  simp only [State.passesOver, State.stationNumber, Bool.and_eq_true, bne_iff_ne, and_assoc]

theorem State.receive_passedOver (passed : s.passesOver n = true) : s.receive n = s := if_pos passed

theorem State.receive_taken (taken : ¬s.passesOver n = true) (room : s.bus.rx.length < 8) :
    s.receive n = State.count { s with bus := { s.bus with rx := s.bus.rx ++ [n] } } .noticesReceived :=
  (if_neg taken).trans (if_pos room)

theorem State.receive_full (taken : ¬s.passesOver n = true) (full : 8 ≤ s.bus.rx.length) :
    s.receive n = s.count .noticesDiscarded :=
  (if_neg taken).trans (if_neg (Nat.not_lt.mpr full))

end

theorem exec_noticeHeard (length : Nat) (w : NoticeWord) (s : State) :
    exec (.noticeHeard length w) s = .next (s.busBusy.hearNotice length w) := rfl

/-- Settles O38: the bus is busy, then the steps of R121 in their order, then what the notice read is. -/
theorem noticeHeardIsTakenOrNot : Obligations.NoticeHeardIsTakenOrNot := by
  intro length w s u v hu hv
  obtain rfl : u = s.busBusy := hu
  obtain rfl : v = s.busBusy.heardAnother := hv
  rw [exec_noticeHeard]
  refine ⟨fun unjoined => congrArg _ (State.hearNotice_deaf (Or.inl unjoined)),
    fun driving => congrArg _ (State.hearNotice_deaf (Or.inr driving)), fun joined waiting => ?_⟩
  rw [State.hearNotice_listening (s := s.busBusy) joined waiting]
  refine ⟨fun bad => congrArg _ (State.hearWord_discards bad), fun whole passed another => ?_⟩
  rw [State.hearWord_reads (s := s.busBusy) whole passed another]
  refine ⟨fun unread => by rw [unread, Option.elim_none], fun n read => ?_⟩
  rw [read, Option.elim_some, ← State.passesOver_iff]
  exact ⟨fun passedOver => congrArg _ (State.receive_passedOver passedOver),
    fun taken room => congrArg _ (State.receive_taken taken room),
    fun taken full => congrArg _ (State.receive_full taken full)⟩

end Sys2Proof.Machine
end

section
/-! Received notices that no block is handed (chapter 7): they leave the receive queue and nothing else. -/
namespace Sys2Proof.Machine

section
variable {s : State} {n : Notice} {rest : List Notice}

/-- R124: what a serving station makes of a received notice, by its kind. -/
def State.handedOn (s : State) (n : Notice) : State :=
  match n.body with
  | .take seek c => if s.addressedHere n then s.takeTake n seek c else s
  | .decline seek reason => if s.addressedHere n then s.takeDecline n seek reason else s
  | .offer seek merit freeSlots => if s.addressedHere n then s.takeOffer n seek merit freeSlots else s
  | .claim _ => s.takeClaim n
  | .transfer seek tag => if s.addressedHere n then s.takeTransfer n seek tag else s.supersede n
  | .seek seek c _ => (s.supersede n).takeSeek n seek c
  | .here number inCall => if s.addressedHere n then (s.supersede n).takeAnswer n number inCall else s.supersede n
  | .find number => s.takeFind n number

/-- R123, R124: the row of the oldest notice's kind hands that notice on. -/
theorem exec_rowOf (rx : s.bus.rx = n :: rest) : exec (rowOf n.body) s = .next (s.dispatch n (s.handedOn n)) := by
  have oldest : s.oldestReceived = some n := by rw [State.oldestReceived, rx, List.head?_cons]
  unfold State.handedOn
  cases body : n.body with
  | take seek c => simp only [rowOf, exec, execTakeReceived, oldest, body, State.handleTake]
  | decline seek reason => simp only [rowOf, exec, execDeclineReceived, oldest, body, State.handleDecline]
  | claim f => simp only [rowOf, exec, execClaimReceived, oldest, body, State.handleClaim]
  | transfer seek tag => simp only [rowOf, exec, execTransferReceived, oldest, body, State.handleTransfer]
  | offer seek merit freeSlots => simp only [rowOf, exec, execOfferReceived, oldest, body, State.handleOffer]
  | seek seek c merit => simp only [rowOf, exec, execSeekReceived, oldest, body, State.handleSeek]
  | here number inCall => simp only [rowOf, exec, execHereReceived, oldest, body, State.handleHere]
  | find number => simp only [rowOf, exec, execFindReceived, oldest, body, State.handleFind]

/-- The oldest notice leaves the receive queue; the rest of it stays. -/
theorem State.dropReceived_eq (rx : s.bus.rx = n :: rest) : s.dropReceived = { s with bus := { s.bus with rx := rest } } := by
  simp only [State.dropReceived, rx, List.tail_cons]

theorem State.dispatch_serving (serving : s.serving = true) (handed : State) : s.dispatch n handed = handed.dropReceived := by
  simp only [State.dispatch, serving, if_true]

theorem State.dispatch_listening (unserving : s.serving = false) (away : s.find? n.handset = none) (handed : State) :
    s.dispatch n handed = s.dropReceived := by
  simp only [State.dispatch, State.supersedeOnly, State.supersede_unknown away, unserving, Bool.false_eq_true, if_false, ite_self]

theorem State.dispatch_unjoined (unserving : s.serving = false) (unjoined : s.joined = false) (handed : State) :
    s.dispatch n handed = s.dropReceived := by
  simp only [State.dispatch, unserving, unjoined, Bool.false_eq_true, if_false]

theorem State.serving_of_unjoined (unjoined : s.joined = false) : s.serving = false := by
  simp only [State.joined, Bool.or_eq_false_iff] at unjoined
  obtain ⟨⟨-, active⟩, draining⟩ := unjoined
  simp only [State.serving, active, draining, Bool.or_false]

/-- A station without entries finds no handset. -/
theorem State.EmptyOutOfService.find?_none (empty : s.EmptyOutOfService) (h : Handset) : s.find? h = none := by
  cases found : s.find? h with
  | none => rfl
  | some held =>
    obtain ⟨-, entry, -⟩ := State.find?_some found
    exact (empty.noEntry entry).elim

/-- R122, R124: a reply to another station is handed to no block. -/
theorem State.handedOn_elsewhere (reply : n.isReply = true) (elsewhere : s.addressedHere n = false) : s.handedOn n = s := by
  unfold State.handedOn
  cases body : n.body with
  | take | decline | offer => simp only [elsewhere, Bool.false_eq_true, if_false]
  | claim | transfer | seek | here | find => simp [Notice.isReply, body] at reply

end

/-- Settles O44: the row dispatches the oldest notice, and the dispatch leaves the state alone but for the queue. -/
theorem noticesNotHandedOnOnlyLeaveTheQueue : Obligations.NoticesNotHandedOnOnlyLeaveTheQueue := by
  refine ⟨fun n rest s listening empty rx => ?_, fun n rest s unjoined rx => ?_,
    fun n rest s serving rx reply other notThis => ?_⟩
  · have unserving : s.serving = false := by simp [State.serving, listening]
    rw [exec_rowOf rx, State.dispatch_listening unserving (empty.find?_none n.handset), State.dropReceived_eq rx]
  · rw [exec_rowOf rx, State.dispatch_unjoined (State.serving_of_unjoined unjoined) unjoined, State.dropReceived_eq rx]
  · have elsewhere : s.addressedHere n = false :=
      Bool.eq_false_iff.mpr fun here => ((s.addressedHere_iff n).mp here).elim other notThis
    rw [exec_rowOf rx, State.dispatch_serving serving, State.handedOn_elsewhere reply elsewhere, State.dropReceived_eq rx]

end Sys2Proof.Machine
end

section
/-! The notice as bits: where its fields lie as sent and as received, its check, and the round trip (chapters 7 and 12). The
rules for a field of appended vectors match where the width is still a sum, so simp is kept from adding (-Nat.reduceAdd). -/
namespace Sys2Proof.Machine

open BitVec (extractLsb'_append_eq_of_le extractLsb'_append_eq_of_add_le extractLsb'_append_eq_left extractLsb'_append_eq_right
  extractLsb'_eq_self)

/-- A field of a field. -/
theorem extractLsb'_extractLsb'_add {w a l b m : Nat} (x : BitVec w) (within : b + m ≤ l) :
    (x.extractLsb' a l).extractLsb' b m = x.extractLsb' (a + b) m := by
  ext i hi
  have inside : b + i < l := by omega
  simp [inside, Nat.add_assoc]

/-- A number that fits its field is read back from it. -/
theorem toNat_field {w v : Nat} (fits : v < 2 ^ w) : (BitVec.ofNat w v).toNat = v := by
  rw [BitVec.toNat_ofNat, Nat.mod_eq_of_lt fits]

/-! ### The check sequence (R110) -/

theorem checkStep_eq (reg : BitVec 16) (bit : Bool) :
    checkStep reg bit = if reg.msb = bit then reg <<< 1 else (reg <<< 1) ^^^ 0x1021 := by
  by_cases same : reg.msb = bit <;> simp [checkStep, same]

theorem checkSequence_eq (head : BitVec 96) : checkSequence head = (List.range 96).foldl
    (fun (reg : BitVec 16) k => if reg.msb = head.getMsbD k then reg <<< 1 else (reg <<< 1) ^^^ 0x1021) 0xFFFF := by
  simp only [checkSequence, checkStep_eq]
  rfl

theorem checkPasses_iff (w : NoticeWord) :
    checkPasses w = true ↔ checkSequence (w.extractLsb' 16 96) = w.extractLsb' 0 16 := beq_iff_eq

/-! ### The bits sent (R188) -/

theorem Notice.encode_head (n : Notice) : n.encode.extractLsb' 16 96 = n.head := extractLsb'_append_eq_left

theorem Notice.encode_check (n : Notice) : n.encode.extractLsb' 0 16 = checkSequence n.head := extractLsb'_append_eq_right

theorem Notice.encode_fields (n : Notice) : n.encode.extractLsb' 108 4 = n.body.code
    ∧ n.encode.extractLsb' 102 6 = BitVec.ofNat 6 n.sender ∧ n.encode.extractLsb' 96 6 = BitVec.ofNat 6 n.dest
    ∧ n.encode.extractLsb' 72 24 = n.handset ∧ n.encode.extractLsb' 64 8 = n.stamp.epoch
    ∧ n.encode.extractLsb' 56 8 = n.stamp.hop ∧ n.encode.extractLsb' 48 8 = n.mark
    ∧ n.encode.extractLsb' 16 32 = n.body.payload := by
  simp (disch := omega) only [Notice.encode, Notice.head, extractLsb'_append_eq_of_le, -Nat.reduceAdd]
  exact ⟨extractLsb'_eq_self, extractLsb'_append_eq_right, extractLsb'_append_eq_right, extractLsb'_append_eq_right,
    extractLsb'_append_eq_right, extractLsb'_append_eq_right, extractLsb'_append_eq_right, extractLsb'_append_eq_right⟩

/-! ### The body by its kind (12.1, R191) -/

section
variable (p : BitVec 32)

theorem NoticeBody.ofPayload_take : ofPayload 1 p = some (take (p.extractLsb' 24 8)
    { slot := (p.extractLsb' 20 4).toNat, carrier := (p.extractLsb' 17 3).toNat }) := rfl

theorem NoticeBody.ofPayload_decline : ofPayload 2 p = some (decline (p.extractLsb' 24 8)
    (DeclineReason.ofCode (p.extractLsb' 20 4))) := rfl

theorem NoticeBody.ofPayload_claim : ofPayload 3 p = some (claim (p.getLsbD 31)) := rfl

theorem NoticeBody.ofPayload_transfer : ofPayload 4 p = some (transfer (p.extractLsb' 24 8) (p.extractLsb' 8 16)) := rfl

theorem NoticeBody.ofPayload_offer : ofPayload 5 p = some (offer (p.extractLsb' 24 8)
    (min 1008 (p.extractLsb' 14 10).toNat) (p.extractLsb' 10 4).toNat) := rfl

theorem NoticeBody.ofPayload_seek : ofPayload 6 p = some (seek (p.extractLsb' 24 8)
    { slot := (p.extractLsb' 20 4).toNat, carrier := (p.extractLsb' 17 3).toNat } (p.extractLsb' 7 10).toNat) := rfl

theorem NoticeBody.ofPayload_here : ofPayload 7 p = some (here (p.extractLsb' 24 8) (p.getLsbD 23)) := rfl

theorem NoticeBody.ofPayload_find : ofPayload 8 p = some (find (p.extractLsb' 24 8)) := rfl

/-- R191: the kind codes 0 and 9 to 15 are undefined. -/
theorem NoticeBody.ofPayload_none_iff (code : BitVec 4) : ofPayload code p = none ↔ code = 0 ∨ 9 ≤ code.toNat := by
  constructor
  · intro unread
    by_contra defined
    have kinds : code = 1 ∨ code = 2 ∨ code = 3 ∨ code = 4 ∨ code = 5 ∨ code = 6 ∨ code = 7 ∨ code = 8 := by bv_omega
    rcases kinds with rfl | rfl | rfl | rfl | rfl | rfl | rfl | rfl <;> cases unread
  · intro undefined
    have kinds : code ≠ 1 ∧ code ≠ 2 ∧ code ≠ 3 ∧ code ≠ 4 ∧ code ≠ 5 ∧ code ≠ 6 ∧ code ≠ 7 ∧ code ≠ 8 := by bv_omega
    simp only [ofPayload, beq_iff_eq, kinds, if_false]

end

/-! ### The fields of each payload -/

theorem NoticeBody.take_fields (k : BitVec 8) (c : Cell) : (take k c).payload.extractLsb' 24 8 = k
    ∧ (take k c).payload.extractLsb' 20 4 = BitVec.ofNat 4 c.slot
    ∧ (take k c).payload.extractLsb' 17 3 = BitVec.ofNat 3 c.carrier := by
  simp (disch := omega) only [payload, extractLsb'_append_eq_of_le, -Nat.reduceAdd]
  exact ⟨extractLsb'_eq_self, extractLsb'_append_eq_right, extractLsb'_append_eq_right⟩

theorem NoticeBody.decline_fields (k : BitVec 8) (r : DeclineReason) : (decline k r).payload.extractLsb' 24 8 = k
    ∧ (decline k r).payload.extractLsb' 20 4 = r.code := by
  simp (disch := omega) only [payload, extractLsb'_append_eq_of_le, -Nat.reduceAdd]
  exact ⟨extractLsb'_eq_self, extractLsb'_append_eq_right⟩

theorem NoticeBody.claim_fields (f : Bool) : (claim f).payload.getLsbD 31 = f := by
  cases f <;> rfl

theorem NoticeBody.transfer_fields (k : BitVec 8) (t : Tag) : (transfer k t).payload.extractLsb' 24 8 = k
    ∧ (transfer k t).payload.extractLsb' 8 16 = t := by
  simp (disch := omega) only [payload, extractLsb'_append_eq_of_le, -Nat.reduceAdd]
  exact ⟨extractLsb'_eq_self, extractLsb'_append_eq_right⟩

theorem NoticeBody.offer_fields (k : BitVec 8) (m free : Nat) : (offer k m free).payload.extractLsb' 24 8 = k
    ∧ (offer k m free).payload.extractLsb' 14 10 = BitVec.ofNat 10 m
    ∧ (offer k m free).payload.extractLsb' 10 4 = BitVec.ofNat 4 free := by
  simp (disch := omega) only [payload, extractLsb'_append_eq_of_le, -Nat.reduceAdd]
  exact ⟨extractLsb'_eq_self, extractLsb'_append_eq_right, extractLsb'_append_eq_right⟩

theorem NoticeBody.seek_fields (k : BitVec 8) (c : Cell) (m : Nat) : (seek k c m).payload.extractLsb' 24 8 = k
    ∧ (seek k c m).payload.extractLsb' 20 4 = BitVec.ofNat 4 c.slot
    ∧ (seek k c m).payload.extractLsb' 17 3 = BitVec.ofNat 3 c.carrier
    ∧ (seek k c m).payload.extractLsb' 7 10 = BitVec.ofNat 10 m := by
  simp (disch := omega) only [payload, extractLsb'_append_eq_of_le, -Nat.reduceAdd]
  exact ⟨extractLsb'_eq_self, extractLsb'_append_eq_right, extractLsb'_append_eq_right, extractLsb'_append_eq_right⟩

theorem NoticeBody.here_fields (k : BitVec 8) (f : Bool) : (here k f).payload.extractLsb' 24 8 = k
    ∧ (here k f).payload.getLsbD 23 = f := by
  constructor
  · simp (disch := omega) only [payload, extractLsb'_append_eq_of_le, -Nat.reduceAdd]
    exact extractLsb'_eq_self
  · rw [payload, BitVec.getLsbD_append, if_neg (lt_irrefl 23), BitVec.getLsbD_append, if_pos (by omega)]
    cases f <;> rfl

theorem NoticeBody.find_fields (k : BitVec 8) : (find k).payload.extractLsb' 24 8 = k := extractLsb'_append_eq_left

/-! ### The reason codes (12.1, R191) -/

theorem DeclineReason.ofCode_code (r : DeclineReason) : ofCode r.code = r := by cases r <;> rfl

theorem DeclineReason.ofCode_undefined : ∀ c : BitVec 4, c = 0 ∨ 9 ≤ c.toNat → ofCode c = .busy := by decide

/-- R188: a body that fits its payload is read back from it. -/
theorem NoticeBody.ofPayload_payload {b : NoticeBody} (fits : b.Fits) : ofPayload b.code b.payload = some b := by
  cases b with
  | take k c =>
    obtain ⟨slot, carrier⟩ := fits
    obtain ⟨number, slotField, carrierField⟩ := take_fields k c
    rw [code, ofPayload_take, number, slotField, carrierField, toNat_field slot, toNat_field carrier]
  | decline k r =>
    obtain ⟨number, reason⟩ := decline_fields k r
    rw [code, ofPayload_decline, number, reason, DeclineReason.ofCode_code]
  | claim f => rw [code, ofPayload_claim, claim_fields]
  | transfer k t =>
    obtain ⟨number, tag⟩ := transfer_fields k t
    rw [code, ofPayload_transfer, number, tag]
  | offer k m free =>
    obtain ⟨merit, freeSlots⟩ := fits
    obtain ⟨number, meritField, freeField⟩ := offer_fields k m free
    rw [code, ofPayload_offer, number, meritField, freeField, toNat_field (w := 10) (by omega), toNat_field freeSlots,
      Nat.min_eq_right merit]
  | seek k c m =>
    obtain ⟨⟨slot, carrier⟩, merit⟩ := fits
    obtain ⟨number, slotField, carrierField, meritField⟩ := seek_fields k c m
    rw [code, ofPayload_seek, number, slotField, carrierField, meritField, toNat_field slot, toNat_field carrier,
      toNat_field merit]
  | here k f =>
    obtain ⟨number, flag⟩ := here_fields k f
    rw [code, ofPayload_here, number, flag]
  | find k => rw [code, ofPayload_find, find_fields]

/-! ### The notice received (R191) -/

/-- The notice that a received word makes with a body. -/
def receivedNotice (w : NoticeWord) (body : NoticeBody) : Notice where
  sender := wordSender w
  dest := (w.extractLsb' 96 6).toNat
  handset := w.extractLsb' 72 24
  stamp := { epoch := w.extractLsb' 64 8, hop := w.extractLsb' 56 8 }
  mark := w.extractLsb' 48 8
  body := body

theorem Notice.decode_stranger {w : NoticeWord} (bad : wordSender w = 0 ∨ 49 ≤ wordSender w) : Notice.decode w = none :=
  if_pos (by simp only [Bool.or_eq_true, decide_eq_true_eq]; omega)

theorem Notice.decode_station {w : NoticeWord} (sender : 1 ≤ wordSender w ∧ wordSender w ≤ 48) : Notice.decode w =
    (NoticeBody.ofPayload (w.extractLsb' 108 4) (w.extractLsb' 16 32)).map (receivedNotice w) :=
  if_neg (by simp only [Bool.or_eq_true, decide_eq_true_eq]; omega)

theorem Notice.decode_none_iff (w : NoticeWord) : Notice.decode w = none ↔
    wordSender w = 0 ∨ 49 ≤ wordSender w ∨ w.extractLsb' 108 4 = 0 ∨ 9 ≤ (w.extractLsb' 108 4).toNat := by
  by_cases sender : 1 ≤ wordSender w ∧ wordSender w ≤ 48
  · rw [Notice.decode_station sender, Option.map_eq_none_iff, NoticeBody.ofPayload_none_iff]
    exact ⟨fun undefined => Or.inr (Or.inr undefined), fun h => (h.resolve_left (by omega)).resolve_left (by omega)⟩
  · have bad : wordSender w = 0 ∨ 49 ≤ wordSender w := by omega
    exact iff_of_true (Notice.decode_stranger bad) (bad.imp_right Or.inl)

theorem Notice.decode_some {w : NoticeWord} {n : Notice} (read : Notice.decode w = some n) :
    NoticeBody.ofPayload (w.extractLsb' 108 4) (w.extractLsb' 16 32) = some n.body ∧ n = receivedNotice w n.body := by
  have sender : 1 ≤ wordSender w ∧ wordSender w ≤ 48 := by
    by_contra bad
    exact absurd (read.symm.trans (Notice.decode_stranger (by omega))) (by simp)
  rw [Notice.decode_station sender, Option.map_eq_some_iff] at read
  obtain ⟨body, read, rfl⟩ := read
  exact ⟨read, rfl⟩

/-- R110, R188: the notice sent is the notice read. -/
theorem Notice.decode_encode {n : Notice} (fits : n.Fits) :
    checkPasses n.encode = true ∧ wordSender n.encode = n.sender ∧ Notice.decode n.encode = some n := by
  obtain ⟨code, senderField, destField, handset, epoch, hop, mark, payload⟩ := n.encode_fields
  have sender : wordSender n.encode = n.sender := by
    rw [wordSender, senderField, toNat_field (lt_of_le_of_lt fits.sender.2 (by decide))]
  have dest : (n.encode.extractLsb' 96 6).toNat = n.dest := by rw [destField, toNat_field fits.dest]
  have same : receivedNotice n.encode n.body = n := by simp only [receivedNotice, sender, dest, handset, epoch, hop, mark]
  refine ⟨?_, sender, ?_⟩
  · rw [checkPasses_iff, n.encode_head, n.encode_check]
  · rw [Notice.decode_station (sender ▸ fits.sender), code, payload, NoticeBody.ofPayload_payload fits.body, Option.map_some,
      same]

/-- The places in the word at which the body of each kind is read. -/
theorem Notice.decode_body {w : NoticeWord} {n : Notice} (read : Notice.decode w = some n) {k : BitVec 8} {c : Cell}
    (number : k = w.extractLsb' 40 8)
    (cell : c = { slot := (w.extractLsb' 36 4).toNat, carrier := (w.extractLsb' 33 3).toNat }) :
    (w.extractLsb' 108 4 = 1 → n.body = .take k c)
    ∧ (w.extractLsb' 108 4 = 2 → n.body = .decline k (DeclineReason.ofCode (w.extractLsb' 36 4)))
    ∧ (w.extractLsb' 108 4 = 3 → n.body = .claim (w.getLsbD 47))
    ∧ (w.extractLsb' 108 4 = 4 → n.body = .transfer k (w.extractLsb' 24 16))
    ∧ (w.extractLsb' 108 4 = 5 →
        n.body = .offer k (min 1008 (w.extractLsb' 30 10).toNat) (w.extractLsb' 26 4).toNat)
    ∧ (w.extractLsb' 108 4 = 6 → n.body = .seek k c (w.extractLsb' 23 10).toNat)
    ∧ (w.extractLsb' 108 4 = 7 → n.body = .here k (w.getLsbD 39))
    ∧ (w.extractLsb' 108 4 = 8 → n.body = .find k) := by
  obtain ⟨body, -⟩ := Notice.decode_some read
  have field (a l : Nat) (within : a + l ≤ 32) : (w.extractLsb' 16 32).extractLsb' a l = w.extractLsb' (16 + a) l :=
    extractLsb'_extractLsb'_add w within
  have flag (i : Nat) (within : i < 32) : (w.extractLsb' 16 32).getLsbD i = w.getLsbD (16 + i) := by
    simp only [BitVec.getLsbD_extractLsb', within, decide_true, Bool.true_and]
  have ofKind {code : BitVec 4} {b : NoticeBody} (reads : NoticeBody.ofPayload code (w.extractLsb' 16 32) = some b)
      (kind : w.extractLsb' 108 4 = code) : n.body = b := Option.some.inj (body.symm.trans (kind ▸ reads))
  subst number cell
  refine ⟨ofKind ?_, ofKind ?_, ofKind ?_, ofKind ?_, ofKind ?_, ofKind ?_, ofKind ?_, ofKind ?_⟩
  · rw [NoticeBody.ofPayload_take, field 24 8 (by omega), field 20 4 (by omega), field 17 3 (by omega)]
  · rw [NoticeBody.ofPayload_decline, field 24 8 (by omega), field 20 4 (by omega)]
  · rw [NoticeBody.ofPayload_claim, flag 31 (by omega)]
  · rw [NoticeBody.ofPayload_transfer, field 24 8 (by omega), field 8 16 (by omega)]
  · rw [NoticeBody.ofPayload_offer, field 24 8 (by omega), field 14 10 (by omega), field 10 4 (by omega)]
  · rw [NoticeBody.ofPayload_seek, field 24 8 (by omega), field 20 4 (by omega), field 17 3 (by omega),
      field 7 10 (by omega)]
  · rw [NoticeBody.ofPayload_here, field 24 8 (by omega), flag 23 (by omega)]
  · rw [NoticeBody.ofPayload_find, field 24 8 (by omega)]

/-- Settles O53: the round trip, the layout as sent, the check sequence, and the places a received word is read at. -/
theorem noticesAreLaidOutAndReadBack : Obligations.NoticesAreLaidOutAndReadBack := by
  refine ⟨fun n => Notice.decode_encode, fun n => ⟨rfl, n.encode_head⟩, fun k c r f t m free b => ?_, rfl,
    ⟨DeclineReason.ofCode_code, DeclineReason.ofCode_undefined⟩, checkSequence_eq,
    fun w => ⟨rfl, checkPasses_iff w, Notice.decode_none_iff w⟩, fun w n k c read number cell => ?_⟩
  · refine ⟨?_, ?_, ?_, ?_, ?_, ?_, ?_, ?_⟩ <;> rintro rfl <;> exact ⟨rfl, rfl⟩
  · obtain ⟨-, received⟩ := Notice.decode_some read
    have head : n.sender = wordSender w ∧ n.dest = (w.extractLsb' 96 6).toNat ∧ n.handset = w.extractLsb' 72 24
        ∧ n.stamp = { epoch := w.extractLsb' 64 8, hop := w.extractLsb' 56 8 } ∧ n.mark = w.extractLsb' 48 8 := by
      rw [received]
      exact ⟨rfl, rfl, rfl, rfl, rfl⟩
    obtain ⟨sender, dest, handset, stamp, mark⟩ := head
    exact ⟨sender, dest, handset, stamp, mark, Notice.decode_body read number cell⟩

end Sys2Proof.Machine
end

section
/-! The candidates of an outbound record are asked in order (chapter 8), against the rules. -/
namespace Sys2Proof.Machine

section
variable {s : State} {r : Nat} {o : OutRecord} {e : Entry}

theorem askFrom_cons_admitted {c : Candidate} (admitted : s.admits (s.transferNotice o e c) = true) (rest : List Candidate)
    (reason : Reason) (other : Nat) : askFrom r o e (c :: rest) reason other s =
      (s.offer (s.transferNotice o e c)).setOut r
        (some { o with phase := .asking (c :: rest) c.station (s.tb.ahead s.sc.config.lead) s.sc.config.takeTimeout }) := by
  rw [askFrom, if_pos admitted]

/-- R133: a refused TRANSFER counts as a DECLINE with QUEUE. -/
theorem askFrom_cons_refused {c : Candidate} (refused : s.admits (s.transferNotice o e c) = false) (rest : List Candidate)
    (reason : Reason) (other : Nat) : askFrom r o e (c :: rest) reason other s = askFrom r o e rest .queue c.station s := by
  rw [askFrom, if_neg (by simp [refused])]

/-- R133: refused candidates ahead of another are passed, and the reason and station left by them are not read. -/
theorem askFrom_refused_append {refused : List Candidate} (all : ∀ d ∈ refused, s.admits (s.transferNotice o e d) = false)
    {c : Candidate} {rest : List Candidate} {t : State}
    (asked : ∀ reason other, askFrom r o e (c :: rest) reason other s = t) (reason : Reason) (other : Nat) :
    askFrom r o e (refused ++ c :: rest) reason other s = t := by
  induction refused generalizing reason other with
  | nil => exact asked reason other
  | cons d refused ih =>
    rw [List.cons_append, askFrom_cons_refused (all d List.mem_cons_self)]
    exact ih (fun x hx => all x (List.mem_cons_of_mem d hx)) _ _

end

/-- Settles O19: a failed attempt, then the candidates: those refused are passed, and the next is asked or the attempt fails. -/
theorem candidatesAreAskedInOrder : Obligations.CandidatesAreAskedInOrder := by
  refine ⟨fun r o e reason other s record entry =>
      State.failAttempt_some (r := ⟨r, State.outRecord?_lt record⟩) record entry reason other,
    fun r o e reason other s => ⟨fun refused c rest passed admitted => ?_, fun refused last all => ?_, rfl⟩⟩
  · exact askFrom_refused_append passed (askFrom_cons_admitted admitted rest) reason other
  · have lastRefused := all last (by simp)
    exact askFrom_refused_append (fun d hd => all d (List.mem_append_left _ hd)) (askFrom_cons_refused lastRefused []) reason other

end Sys2Proof.Machine
end

section
/-! The report of a held slot (chapters 2, 3 and 8), against its rules. -/
namespace Sys2Proof.Machine

section
variable {s x : State} {w : BurstWord} {b : Burst} {h : Handset} {i q target : Nat} {e m : Entry} {o : OutRecord}
  {report : LinkReport}

theorem State.outOf_congr {s t : State} (h : t.he = s.he) (i : Nat) : t.outOf i = s.outOf i := by
  simp only [State.outOf, h]

/-- A held report that the plan in force asks for is measured, and then the Handover Engine takes it. -/
theorem exec_heldReport_asked (read : Burst.ofWord w = b) (asks : s.HeldAsks b h) (found : s.find? h = some (i, e))
    (handed : report = b.forHandset h) (measured : e.measure s.sc.config.filterShift report = m)
    (written : x = (s.markReported b.slot).setEntry i (some m)) :
    exec (.heldReport w) s = .next (x.heldTakesReport i report)
      ∧ x.entry? i = some m ∧ x.sc.config = s.sc.config ∧ x.he = s.he := by
  obtain ⟨lookup, entry, -⟩ := State.find?_some found
  have marked : (s.markReported b.slot).entry? i = some e := by simpa using entry
  have routed := s.heldBurst_asks b h i asks lookup
  have config : (s.markReported b.slot).sc.config = s.sc.config := rfl
  rw [State.measure_eq marked, ← handed, config, measured, ← written, ← read] at routed
  refine ⟨congrArg Host.Outcome.next routed, ?_, by simp [written], by simp [written]⟩
  rw [written, State.entry?_setEntry_self _ _ _ (State.entry?_lt entry)]

theorem State.heldTakesReport_fallback {mark : Mark} {nc : Cell} {n : Nat} (entry : s.entry? i = some e)
    (owned : s.outOf i = some q) (record : s.outRecord? q = some o) (phase : o.phase = .fallback target mark nc n)
    (report : LinkReport) : s.heldTakesReport i report =
      if report.good then if report.clear then s.clearTheCall i e .handset else s.returnToOld q o e target else s := by
  simp only [State.heldTakesReport, State.goodHeld, entry, owned, record, phase]

/-- R139: a held report of an entry whose record is not in FALLBACK, or that has none, is not the Handover Engine's. -/
theorem State.heldTakesReport_other
    (other : ∀ q o target mark nc n, s.outOf i = some q → s.outRecord? q = some o → o.phase ≠ .fallback target mark nc n)
    (report : LinkReport) : s.heldTakesReport i report = s := by
  unfold State.heldTakesReport
  cases entry : s.entry? i with
  | none => rfl
  | some e =>
    cases owned : s.outOf i with
    | none => rfl
    | some q =>
      cases record : s.outRecord? q with
      | none => simp only [record]
      | some o =>
        cases phase : o.phase with
        | fallback target mark nc n => exact absurd phase (other q o target mark nc n owned record)
        | seeking | asking | switching => simp only [record, phase]

/-- R139, R142: a return restores the slot and the call, and the attempt fails with RETURNED. -/
theorem State.returnToOld_leaving {c : Cell} {tag : Tag} {k : Link} (record : s.outRecord? q = some o)
    (entry : s.entry? o.entry = some e) (phase : e.phase = .leaving c tag k) (target : Nat) :
    s.returnToOld q o e target =
      ((((s.restoreSlot c.slot e.handset).setEntry o.entry
        (some { e with phase := .inCall c tag k, holdoff := s.sc.config.holdoff })).post .handoverFailed e.handset target tag
          .returned).count .handoverFailures).setOut q none := by
  have entered : ((s.restoreSlot c.slot e.handset).setEntry o.entry (some { e with phase := .inCall c tag k })).entry? o.entry
      = some { e with phase := .inCall c tag k } := State.entry?_setEntry_self _ _ _ (State.entry?_lt entry)
  have kept : ((s.restoreSlot c.slot e.handset).setEntry o.entry (some { e with phase := .inCall c tag k })).outRecord? q
      = some o := (State.outRecord?_congr (by simp) q).trans record
  have config : (s.restoreSlot c.slot e.handset).sc.config = s.sc.config := by simp
  simp only [State.returnToOld, phase]
  rw [State.failAttempt_some (r := ⟨q, State.outRecord?_lt record⟩) kept entered, ← config]
  exact congrArg (State.setOut · q none) (State.setEntry_setEntry
    (((s.restoreSlot c.slot e.handset).post .handoverFailed e.handset target tag .returned).count .handoverFailures) _ _ _)

end

/-- Settles O35: the report is measured; a FALLBACK record then ends with the call or returns it, and no other record is told. -/
theorem heldReportReturnsTheCall : Obligations.HeldReportReturnsTheCall := by
  refine ⟨fun w b h i q e o c nc tag k k' f target n m r s x read asks found phase hr hf hk owned record fallback hx => ?_,
    fun w b h i e r s read asks found hr other => ?_⟩
  · obtain ⟨-, -, rfl⟩ := State.find?_some found
    obtain ⟨p, held, rfl⟩ := State.outOf_some owned
    obtain rfl := Option.some.inj (record.symm.trans held)
    have measured := e.measure_leaving phase s.sc.config.filterShift r
    rw [← hf, ← hk] at measured
    obtain ⟨whole, entry, config, same⟩ := exec_heldReport_asked read asks found hr measured hx
    have record' := (State.outRecord?_congr same q).trans record
    rw [whole, State.heldTakesReport_fallback entry ((State.outOf_congr same _).trans owned) record' fallback]
    refine ⟨fun bad => ?_, fun good clear => ?_, fun good goesOn => ?_⟩
    · rw [if_neg (by simp [bad])]
    · rw [if_pos good, if_pos clear, State.clearTheCall_eq entry rfl]
      rfl
    · rw [if_pos good, if_neg (by simp [goesOn]), State.returnToOld_leaving record' entry rfl, config]
  · obtain ⟨whole, -, -, same⟩ := exec_heldReport_asked read asks found hr rfl rfl
    rw [whole, State.heldTakesReport_other fun q o target mark nc n owned record =>
      other q o target mark nc n ((State.outOf_congr same i).symm.trans owned)
        ((State.outRecord?_congr same q).symm.trans record)]
    rfl

end Sys2Proof.Machine
end

section
/-! The replies to a SEEK and a TRANSFER (chapter 8): the candidate list, and what OFFER, DECLINE and TAKE do to the record of their
handset and seek number. -/
namespace Sys2Proof.Machine

/-! ### The candidate list (R129) -/

theorem placeInOrder_perm (c : Candidate) (l : List Candidate) : (placeInOrder c l).Perm (c :: l) := by
  induction l with
  | nil => exact .refl _
  | cons d l ih =>
    unfold placeInOrder
    split
    · exact .refl _
    · exact (ih.cons d).trans (.swap c d l)

/-- What the first places of an ordered list leave out stands behind everything that fills them. -/
theorem mem_take_or_behind {α : Type} {R : α → α → Prop} {l : List α} (ordered : l.Pairwise R) (n : Nat) {x : α} (mem : x ∈ l) :
    x ∈ l.take n ∨ ((l.take n).length = n ∧ ∀ y ∈ l.take n, R y x) := by
  rw [← List.take_append_drop n l] at ordered mem
  obtain ⟨-, -, ahead⟩ := List.pairwise_append.mp ordered
  refine (List.mem_append.mp mem).imp_right fun later => ⟨?_, fun y hy => ahead y hy x later⟩
  have := List.length_pos_of_mem later
  rw [List.length_drop] at this
  rw [List.length_take]
  omega

/-- The candidates of other stations. -/
theorem mem_others (c x : Candidate) (l : List Candidate) :
    x ∈ l.filter (fun d => d.station != c.station) ↔ x ∈ l ∧ x.station ≠ c.station := by
  rw [List.mem_filter, bne_iff_ne]

/-- R129: the list from which the first three are kept: the new candidate among those of other stations, in order. -/
theorem placeInOrder_others {l : List Candidate} (ordered : CandidatesOrdered l) (once : (l.map (·.station)).Nodup)
    (c : Candidate) :
    CandidatesOrdered (placeInOrder c (l.filter fun d => d.station != c.station))
      ∧ ((placeInOrder c (l.filter fun d => d.station != c.station)).map (·.station)).Nodup
      ∧ ∀ x, x ∈ placeInOrder c (l.filter fun d => d.station != c.station) ↔ x = c ∨ (x ∈ l ∧ x.station ≠ c.station) := by
  refine ⟨placeInOrder_ordered c _ (List.Pairwise.filter _ ordered) fun x hx => ((mem_others c x l).mp hx).2, ?_,
    fun x => (mem_placeInOrder c x _).trans (or_congr_right (mem_others c x l))⟩
  rw [((placeInOrder_perm c _).map _).nodup_iff, List.map_cons, List.nodup_cons]
  refine ⟨fun mem => ?_, once.sublist (List.filter_sublist.map _)⟩
  obtain ⟨x, hx, same⟩ := List.mem_map.mp mem
  exact ((mem_others c x l).mp hx).2 same

/-- R129: an entered candidate list stays in order, and keeps the first three of what it is offered. -/
theorem enterCandidate_spec {l : List Candidate} (ordered : CandidatesOrdered l) (once : (l.map (·.station)).Nodup)
    (c : Candidate) : CandidatesOrdered (enterCandidate c l) ∧ ((enterCandidate c l).map (·.station)).Nodup
      ∧ (enterCandidate c l).length ≤ 3
      ∧ (∀ x, x ∈ enterCandidate c l → x = c ∨ (x ∈ l ∧ x.station ≠ c.station))
      ∧ ∀ x, x = c ∨ (x ∈ l ∧ x.station ≠ c.station) → x ∈ enterCandidate c l ∨ ((enterCandidate c l).length = 3
          ∧ ∀ y ∈ enterCandidate c l, x.merit < y.merit ∨ (x.merit = y.merit ∧ y.station < x.station)) := by
  obtain ⟨inOrder, apart, offered⟩ := placeInOrder_others ordered once c
  have first : (enterCandidate c l).Sublist (placeInOrder c (l.filter fun d => d.station != c.station)) :=
    List.take_sublist _ _
  exact ⟨inOrder.sublist first, apart.sublist (first.map _), enterCandidate_length c l,
    fun x hx => (offered x).mp (first.subset hx), fun x hx => mem_take_or_behind inOrder _ ((offered x).mpr hx)⟩

/-! ### Replies handed on (R124) -/

section
variable {s : State} {n : Notice} {rest : List Notice} {seek : BitVec 8} {r : Nat} {o : OutRecord} {e : Entry}

/-- R123, R124: at a serving station the oldest notice is handed on, and then leaves the receive queue. -/
theorem exec_rowOf_serving (serving : s.serving = true) (rx : s.bus.rx = n :: rest) :
    exec (rowOf n.body) s = .next (s.handedOn n).dropReceived := by
  rw [exec_rowOf rx, State.dispatch_serving serving]

theorem exec_offerReceived_here {merit free : Nat} (serving : s.serving = true) (rx : s.bus.rx = n :: rest)
    (here : s.addressedHere n = true) (body : n.body = .offer seek merit free) :
    exec .offerReceived s = .next (s.takeOffer n seek merit free).dropReceived := by
  have handed := exec_rowOf_serving serving rx
  simpa only [State.handedOn, rowOf, body, here, if_true] using handed

theorem exec_declineReceived_here {reason : DeclineReason} (serving : s.serving = true) (rx : s.bus.rx = n :: rest)
    (here : s.addressedHere n = true) (body : n.body = .decline seek reason) :
    exec .declineReceived s = .next (s.takeDecline n seek reason).dropReceived := by
  have handed := exec_rowOf_serving serving rx
  simpa only [State.handedOn, rowOf, body, here, if_true] using handed

theorem exec_takeReceived_here {nc : Cell} (serving : s.serving = true) (rx : s.bus.rx = n :: rest)
    (here : s.addressedHere n = true) (body : n.body = .take seek nc) :
    exec .takeReceived s = .next (s.takeTake n seek nc).dropReceived := by
  have handed := exec_rowOf_serving serving rx
  simpa only [State.handedOn, rowOf, body, here, if_true] using handed

/-- The record found for a handset and a seek number is one. -/
theorem State.outFor?_unique {h : Handset} {P : OutRecord → Prop} (found : s.outFor? h seek = some (r, o)) (holds : P o) :
    ∀ q p, s.outFor? h seek = some (q, p) → P p := by
  intro q p again
  cases found.symm.trans again
  exact holds

theorem State.outFor?_absent {h : Handset} {P : OutRecord → Prop} (none : s.outFor? h seek = none) :
    ∀ q p, s.outFor? h seek = some (q, p) → P p :=
  fun _ _ found => nomatch none.symm.trans found

/-! ### OFFER (R129, R130) -/

theorem State.takeOffer_seeking {m : Mark} {l : List Candidate} (found : s.outFor? n.handset seek = some (r, o))
    (phase : o.phase = .seeking m l) (merit free : Nat) : s.takeOffer n seek merit free = s.setOut r (some { o with
      phase := .seeking m (enterCandidate { station := n.sender, merit := min 1008 merit, freeSlots := free } l) }) := by
  simp only [State.takeOffer, found, phase, capMerit]

/-- R130: an OFFER for which no record is SEEKING is ignored. -/
theorem State.takeOffer_ignored (other : ∀ r o, s.outFor? n.handset seek = some (r, o) → o.phase.code ≠ 1) (merit free : Nat) :
    s.takeOffer n seek merit free = s := by
  unfold State.takeOffer
  cases found : s.outFor? n.handset seek with
  | none => rfl
  | some p =>
    obtain ⟨r, o⟩ := p
    cases phase : o.phase with
    | seeking m l => exact absurd (congrArg OutPhase.code phase) (other r o found)
    | asking | switching | fallback => simp only [phase]

/-! ### DECLINE (R133) -/

theorem State.takeDecline_target {l : List Candidate} {m : Mark} {k : Nat} (found : s.outFor? n.handset seek = some (r, o))
    (phase : o.phase = .asking l n.sender m k) (entry : s.entry? o.entry = some e) (reason : DeclineReason) :
    s.takeDecline n seek reason = askFrom r o e (l.filter fun c => c.station != n.sender) reason.reason n.sender s := by
  obtain ⟨record, -⟩ := State.outFor?_some found
  simp only [State.takeDecline, State.nextCandidate, found, phase, record, entry, if_true]

/-- R133: a DECLINE of another station than the current target is ignored. -/
theorem State.takeDecline_ignored
    (other : ∀ r o, s.outFor? n.handset seek = some (r, o) → ∀ l m k, o.phase ≠ .asking l n.sender m k)
    (reason : DeclineReason) : s.takeDecline n seek reason = s := by
  unfold State.takeDecline
  cases found : s.outFor? n.handset seek with
  | none => rfl
  | some p =>
    obtain ⟨r, o⟩ := p
    cases phase : o.phase with
    | asking l target m k =>
      have differ : target ≠ n.sender := fun same => other r o found l m k (same ▸ phase)
      simp only [phase, if_neg differ]
    | seeking | switching | fallback => simp only [phase]

/-! ### TAKE (R135, R136) -/

theorem State.takeTake_target {l : List Candidate} {k : Nat} {nc : Cell} (found : s.outFor? n.handset seek = some (r, o))
    (phase : o.phase = .asking l n.sender n.mark k) (slot : nc.slot ≠ 0) :
    s.takeTake n seek nc = s.actOnTake r o n.sender n.mark nc := by
  simp only [State.takeTake, found, phase]
  rw [if_pos ⟨trivial, trivial, slot⟩]

/-- R135, R191: a TAKE of another station than the current target, of another switch mark or of slot 0 is ignored. -/
theorem State.takeTake_ignored {nc : Cell}
    (other : ∀ r o, s.outFor? n.handset seek = some (r, o) → ∀ l k, o.phase = .asking l n.sender n.mark k → nc.slot = 0) :
    s.takeTake n seek nc = s := by
  unfold State.takeTake
  cases found : s.outFor? n.handset seek with
  | none => rfl
  | some p =>
    obtain ⟨r, o⟩ := p
    cases phase : o.phase with
    | asking l target m k =>
      have differ : ¬(target = n.sender ∧ n.mark = m ∧ nc.slot ≠ 0) := by
        rintro ⟨rfl, rfl, slot⟩
        exact slot (other r o found l k phase)
      simp only [phase, if_neg differ]
    | seeking | switching | fallback => simp only [phase]

theorem State.actOnTake_inCall {c nc : Cell} {tag : Tag} {k : Link} {target : Nat} {m : Mark}
    (entry : s.entry? o.entry = some e) (phase : e.phase = .inCall c tag k) : s.actOnTake r o target m nc =
      if s.tb.within m 1 128 = true ∧ s.changeRefusal? (heldChange c e.handset m) = none then
        s.proceed r o e c tag k target m nc
      else s.failAttempt r .late target := by
  simp only [State.actOnTake, entry, phase, Bool.and_eq_true, Option.isNone_iff_eq_none]

/-- An attempt fails alike before and after the notice that ends it has left the receive queue. -/
theorem State.dropReceived_failAttempt (record : s.outRecord? r = some o) (entry : s.entry? o.entry = some e) (reason : Reason)
    (other : Nat) : (s.failAttempt r reason other).dropReceived = s.dropReceived.failAttempt r reason other := by
  have index := State.outRecord?_lt record
  rw [State.failAttempt_some (s := s) (r := ⟨r, index⟩) record entry,
    State.failAttempt_some (s := s.dropReceived) (r := ⟨r, index⟩) record entry]
  rfl

end

/-- Settles O40: each reply is handed to the record of its handset and seek number, whose state says what becomes of it. -/
theorem repliesReachTheirRecord : Obligations.RepliesReachTheirRecord := by
  refine ⟨fun n rest seek merit free s d serving rx dest body hd => ?_,
    fun c l ordered once => enterCandidate_spec ordered once c,
    fun n rest seek reason s d serving rx dest body hd => ?_, fun n rest seek nc s d serving rx dest body hd => ?_,
    fun _ _ => rfl⟩
  all_goals
    have here := (s.addressedHere_iff n).mpr dest
    obtain rfl := hd.trans (State.dropReceived_eq rx).symm
  · have whole := exec_offerReceived_here serving rx here body
    have ignored (other : ∀ r o, s.outFor? n.handset seek = some (r, o) → o.phase.code ≠ 1) :
        exec .offerReceived s = .next s.dropReceived := by rw [whole, State.takeOffer_ignored other]
    refine ⟨fun r o m l found phase => ?_, fun none => ignored (State.outFor?_absent none),
      fun r o found code => ignored (State.outFor?_unique found code)⟩
    rw [whole, State.takeOffer_seeking found phase]
    rfl
  · have whole := exec_declineReceived_here serving rx here body
    have ignored (other : ∀ r o, s.outFor? n.handset seek = some (r, o) → ∀ l m k, o.phase ≠ .asking l n.sender m k) :
        exec .declineReceived s = .next s.dropReceived := by rw [whole, State.takeDecline_ignored other]
    refine ⟨fun r o e l m k found phase entry => by rw [whole, State.takeDecline_target found phase entry],
      fun r o l target m k found phase differ => ignored (State.outFor?_unique found (by simp [phase, differ])),
      fun r o found code => ignored (State.outFor?_unique found fun l m k asking => code (congrArg OutPhase.code asking)),
      fun none => ignored (State.outFor?_absent none)⟩
  · have whole := exec_takeReceived_here serving rx here body
    have ignored (other : ∀ r o, s.outFor? n.handset seek = some (r, o) → ∀ l k, o.phase = .asking l n.sender n.mark k →
        nc.slot = 0) : exec .takeReceived s = .next s.dropReceived := by rw [whole, State.takeTake_ignored other]
    refine ⟨fun r o e c tag k l x found phase slot entry call => ?_,
      fun r o l target m x found phase stray => ignored (State.outFor?_unique found fun l' k asking => ?_),
      fun r o found code => ignored (State.outFor?_unique found fun l k asking =>
        absurd (congrArg OutPhase.code asking) code),
      fun none => ignored (State.outFor?_absent none)⟩
    · obtain ⟨record, -⟩ := State.outFor?_some found
      rw [whole, State.takeTake_target found phase slot, State.actOnTake_inCall entry call]
      refine ⟨fun ahead admitted => ?_, fun late => ?_⟩
      · rw [if_pos ⟨ahead, admitted⟩]
        rfl
      · rw [if_neg (by rintro ⟨ahead, admitted⟩; simp [ahead, admitted] at late),
          State.dropReceived_failAttempt record entry]
    · cases phase.symm.trans asking
      simpa using stray

end Sys2Proof.Machine
end

section
/-! A TRANSFER from a neighbouring station (chapter 9): the seven checks, and what becomes of a TRANSFER that passes them. -/
namespace Sys2Proof.Machine

section
variable {s : State} {n : Notice} {seek : BitVec 8} {tag : Tag}

/-! ### The checks (R62, R151, R152) -/

/-- R62: a fresh handset was overheard at most 8 strobes ago. -/
theorem State.fresh_iff (s : State) (h : Handset) : s.fresh h = true ↔ ∃ o, s.overheard? h = some o ∧ o.age ≤ 8 := by
  unfold State.fresh
  cases s.overheard? h <;> simp [Config.freshAge]

theorem State.transferNewer_held {i : Nat} {e : Entry} (held : s.find? n.handset = some (i, e)) :
    s.transferNewer n = n.stamp.newer e.stamp := by
  simp only [State.transferNewer, held]

/-- R152: a handset that is not held here passes check 4. -/
theorem State.transferNewer_of_all (newer : ∀ i e, s.find? n.handset = some (i, e) → n.stamp.newer e.stamp = true) :
    s.transferNewer n = true := by
  cases held : s.find? n.handset with
  | none => simp only [State.transferNewer, held]
  | some place =>
    obtain ⟨i, e⟩ := place
    rw [State.transferNewer_held held, newer i e held]

/-- R151: the seven checks. -/
theorem State.transferRefusal?_none_iff (s : State) (n : Notice) : s.transferRefusal? n = none ↔
    s.isActive = true ∧ s.tb.known = true ∧ s.tb.within n.mark 2 128 = true ∧ s.transferNewer n = true
    ∧ s.fresh n.handset = true ∧ s.freeIn ≠ none ∧ s.freeIndex ≠ none := by
  rw [State.transferRefusal?, check_passed_iff, check_passed_iff, check_passed_iff, check_passed_iff, check_passed_iff,
    check_passed_iff, check_passed_iff]
  simp only [Bool.not_eq_true', Bool.not_eq_false, Option.isNone_iff_eq_none, ne_eq, and_true]

/-- R151: what a TRANSFER that passes the checks is taken with: an overheard entry, a FREE entry and a free record. -/
theorem State.places_of_transferRefusal? (passed : s.transferRefusal? n = none) :
    ∃ o i r, s.overheard? n.handset = some o ∧ s.freeIndex = some i ∧ s.freeIn = some r := by
  obtain ⟨-, -, -, -, fresh, record, index⟩ := (s.transferRefusal?_none_iff n).mp passed
  obtain ⟨o, heard, -⟩ := (s.fresh_iff n.handset).mp fresh
  obtain ⟨i, index⟩ := Option.ne_none_iff_exists'.mp index
  obtain ⟨r, record⟩ := Option.ne_none_iff_exists'.mp record
  exact ⟨o, i, r, heard, index, record⟩

/-! ### What becomes of it (R151, R153, R154) -/

theorem exec_transferReceived_serving {rest : List Notice} (serving : s.serving = true) (rx : s.bus.rx = n :: rest)
    (body : n.body = .transfer seek tag) : exec .transferReceived s =
      .next (if s.addressedHere n then s.takeTransfer n seek tag else s.supersede n).dropReceived := by
  have handed := exec_rowOf_serving serving rx
  simpa only [State.handedOn, rowOf, body] using handed

theorem State.takeTransfer_refused {reason : DeclineReason} (refused : s.transferRefusal? n = some reason) :
    s.takeTransfer n seek tag = s.offer (s.declineNotice n seek reason) := by
  simp only [State.takeTransfer, refused]

theorem State.takeTransfer_passed {o : Overheard} {i r : Nat} (passed : s.transferRefusal? n = none)
    (heard : s.overheard? n.handset = some o) (index : s.freeIndex = some i) (record : s.freeIn = some r) :
    s.takeTransfer n seek tag = s.acceptTransfer n seek tag o.level i r := by
  simp only [State.takeTransfer, passed, heard, index, record]

/-- R153: without an allocatable cell the TRANSFER is declined with NO_BEARER. -/
theorem State.takeTransfer_noCell (passed : s.transferRefusal? n = none) (noCell : s.selectCell = none) :
    s.takeTransfer n seek tag = s.offer (s.declineNotice n seek .noBearer) := by
  obtain ⟨o, i, r, heard, index, record⟩ := State.places_of_transferRefusal? passed
  rw [State.takeTransfer_passed passed heard index record]
  simp only [State.acceptTransfer, noCell]

theorem State.acceptTransfer_selected {c : Cell} (chosen : s.selectCell = some c) (level i r : Nat) :
    s.acceptTransfer n seek tag level i r =
      if (s.moveCursor c).admits (s.takeNotice n seek c) then
        ((s.moveCursor c).offer (s.takeNotice n seek c)).reserve n seek tag c level i r
      else s.moveCursor c := by
  simp only [State.acceptTransfer, chosen]

end

/-- Settles O42: the checks one after another, then the DECLINE or, for a TRANSFER that passes, the TAKE and the reservation. -/
theorem transferIsTakenOrDeclined : Obligations.TransferIsTakenOrDeclined := by
  refine ⟨fun n s => ⟨fun inactive => ?_, fun active unknown => ?_, fun active known => ⟨fun late => ?_, fun ahead =>
    ⟨fun i e held stale => ?_, fun newer => ?_⟩⟩⟩, fun n rest seek tag s serving rx body => ?_⟩
  · simp [State.transferRefusal?, State.isActive, inactive]
  · simp [State.transferRefusal?, State.isActive, active, unknown]
  · simp [State.transferRefusal?, State.isActive, active, known, late]
  · simp [State.transferRefusal?, State.isActive, active, known, ahead, State.transferNewer_held held, stale]
  · have newer := State.transferNewer_of_all newer
    refine ⟨fun unheard => ?_, fun fresh busy => ?_, fun fresh record full => ?_, fun fresh record index => ?_⟩
    · simp [State.transferRefusal?, State.isActive, active, known, ahead, newer, unheard]
    · simp [State.transferRefusal?, State.isActive, active, known, ahead, newer, fresh, busy]
    · simp [State.transferRefusal?, State.isActive, active, known, ahead, newer, fresh, record, full]
    · exact (s.transferRefusal?_none_iff n).mpr ⟨by simp [State.isActive, active], known, ahead, newer, fresh, record, index⟩
  · rw [exec_transferReceived_serving serving rx body]
    refine ⟨fun other notThis => ?_, fun here => ?_⟩
    · rw [if_neg fun here => ((s.addressedHere_iff n).mp here).elim other notThis]
    · rw [if_pos ((s.addressedHere_iff n).mpr here)]
      refine ⟨fun reason declined => ?_, fun c o i r take v passed chosen heard index record hv htake => ?_⟩
      · obtain refused | ⟨passed, noCell, rfl⟩ := declined
        · rw [State.takeTransfer_refused refused]
          rfl
        · rw [State.takeTransfer_noCell passed noCell]
          rfl
      · obtain rfl : take = s.takeNotice n seek c := htake
        subst hv
        rw [State.takeTransfer_passed passed heard index record, State.acceptTransfer_selected chosen]
        refine ⟨fun refused => ?_, fun admitted => ?_⟩
        · rw [if_neg (by simp [refused])]
        · rw [if_pos admitted]
          rfl

end Sys2Proof.Machine
end

section
/-! SEEK, HERE and FIND at a serving station (chapters 4, 5 and 9), and the rows of received notices when the oldest notice is of
another kind (chapter 7). -/
namespace Sys2Proof.Machine

section
variable {s : State} {n : Notice} {rest : List Notice} {number : BitVec 8}

/-! ### Targeted listens (R64) -/

theorem ListenRequest.sameKey_iff (r x : ListenRequest) :
    r.sameKey x = true ↔ x.seeker = r.seeker ∧ x.handset = r.handset := by
  simp only [ListenRequest.sameKey, Bool.and_eq_true, beq_iff_eq, @eq_comm _ r.seeker, @eq_comm _ r.handset]

theorem State.registerListen_admitted {r : ListenRequest} (admitted : s.listenRefusal? r = none) :
    s.registerListen r = { s with mu := { s.mu with listens := placeListen r s.mu.listens } } := by
  simp only [State.registerListen, admitted]

theorem State.registerListen_refused {r : ListenRequest} (refused : s.listenRefusal? r ≠ none) : s.registerListen r = s := by
  obtain ⟨why, refusal⟩ := Option.ne_none_iff_exists'.mp refused
  simp only [State.registerListen, refusal]

/-- R64: a request of a seeker and handset in the list takes the place of the one there. -/
theorem placeListen_known {r : ListenRequest} {l : List ListenRequest} (known : ∃ x ∈ l, r.sameKey x = true) :
    placeListen r l = l.map fun x => if x.seeker = r.seeker ∧ x.handset = r.handset then r else x := by
  simp only [placeListen, List.any_eq_true.mpr known, if_true, r.sameKey_iff]

theorem placeListen_new {r : ListenRequest} {l : List ListenRequest} (new : l.any r.sameKey = false) :
    placeListen r l = l ++ [r] := by
  simp only [placeListen, new, Bool.false_eq_true, if_false]

/-- R64: the checks of a request of a SEEK that is not set aside: the mark is known, since the reply-by mark is ahead. -/
theorem State.listenRefusal?_none_iff_of_ahead {r : ListenRequest} (ahead : s.tb.within r.replyBy 1 128 = true)
    (free : s.isHeld r.handset = false) : s.listenRefusal? r = none ↔
      (1 ≤ r.cell.slot ∧ r.cell.slot ≤ 15) ∧ (s.mu.listens.any r.sameKey = true ∨ s.mu.listens.length < 8) := by
  obtain ⟨known, -⟩ := (TimeBase.within_iff _ _ _ _).mp ahead
  simp only [s.listenRefusal?_none_iff, known, ahead, free, true_and]

/-- R64: a new request goes to the back of fewer than 8. -/
theorem State.registerListen_new {r : ListenRequest} (ahead : s.tb.within r.replyBy 1 128 = true)
    (free : s.isHeld r.handset = false) (slot : 1 ≤ r.cell.slot ∧ r.cell.slot ≤ 15)
    (new : s.mu.listens.any r.sameKey = false) : s.registerListen r =
      if s.mu.listens.length < 8 then { s with mu := { s.mu with listens := s.mu.listens ++ [r] } } else s := by
  have checks := State.listenRefusal?_none_iff_of_ahead ahead free
  split
  · rename_i room
    rw [State.registerListen_admitted (checks.mpr ⟨slot, .inr room⟩), placeListen_new new]
  · rename_i full
    refine State.registerListen_refused fun admitted => ?_
    obtain ⟨-, known | room⟩ := checks.mp admitted
    · exact absurd known (by simp [new])
    · exact full room

/-! ### SEEK (R148, R149) -/

theorem exec_seekReceived_serving {seek : BitVec 8} {c : Cell} {m : Nat} (serving : s.serving = true)
    (rx : s.bus.rx = n :: rest) (body : n.body = .seek seek c m) :
    exec .seekReceived s = .next ((s.supersede n).takeSeek n seek c).dropReceived := by
  have handed := exec_rowOf_serving serving rx
  simpa only [State.handedOn, rowOf, body] using handed

theorem State.takeSeek_closed {seek : BitVec 8} {c : Cell} (closed : ¬ s.seekOpen n.handset n.mark = true) :
    s.takeSeek n seek c = s := if_neg closed

theorem State.takeSeek_fresh {seek : BitVec 8} {c : Cell} {o : Overheard} (opened : s.seekOpen n.handset n.mark = true)
    (heard : s.overheard? n.handset = some o) (young : o.age ≤ 8) :
    s.takeSeek n seek c = s.decideOffer n.handset n.sender seek n.stamp := by
  rw [State.takeSeek, if_pos opened, if_pos ((s.fresh_iff n.handset).mpr ⟨o, heard, young⟩)]

theorem State.takeSeek_notFresh {seek : BitVec 8} {c : Cell} (opened : s.seekOpen n.handset n.mark = true)
    (unheard : s.fresh n.handset = false) : s.takeSeek n seek c = s.registerListen (n.listenRequest seek c) := by
  rw [State.takeSeek, if_pos opened, if_neg (by simp [unheard])]

/-! ### HERE (R88) -/

theorem exec_hereReceived_serving {inCall : Bool} (serving : s.serving = true) (rx : s.bus.rx = n :: rest)
    (body : n.body = .here number inCall) : exec .hereReceived s = .next
      (if s.addressedHere n then (s.supersede n).takeAnswer n number inCall else s.supersede n).dropReceived := by
  have handed := exec_rowOf_serving serving rx
  simpa only [State.handedOn, rowOf, body] using handed

theorem State.takeAnswer_unsought (unsought : s.findFor n.handset = none) (inCall : Bool) :
    s.takeAnswer n number inCall = s := by
  simp only [State.takeAnswer, unsought]

theorem State.takeAnswer_running {r : Nat} {f : FindRecord} (running : s.findFor n.handset = some r)
    (record : s.findRecord? r = some f) (inCall : Bool) : s.takeAnswer n number inCall =
      if f.number = number then
        s.setFind r (some { f with
          answer := some (keepAnswer f.answer { station := n.sender, stamp := n.stamp, inCall := inCall }) })
      else s := by
  simp only [State.takeAnswer, running, record]

/-! ### FIND (R89) -/

theorem exec_findReceived_serving (serving : s.serving = true) (rx : s.bus.rx = n :: rest) (body : n.body = .find number) :
    exec .findReceived s = .next (s.takeFind n number).dropReceived := by
  have handed := exec_rowOf_serving serving rx
  simpa only [State.handedOn, rowOf, body] using handed

theorem State.takeFind_away (away : s.find? n.handset = none) : s.takeFind n number = s := by
  simp only [State.takeFind, away]

theorem State.takeFind_held {i : Nat} {e : Entry} (held : s.find? n.handset = some (i, e)) :
    s.takeFind n number = if e.isArriving then s else s.offer (s.hereNotice n number e) := by
  simp only [State.takeFind, held]

/-! ### Rows without their notice (R123) -/

/-- A row for received notices does nothing when the receive queue is empty or its oldest notice is of another kind. -/
theorem exec_noticeRow_idle {row : Instr} (mem : row ∈ [Instr.takeReceived, .declineReceived, .claimReceived
    , .transferReceived, .offerReceived, .seekReceived, .hereReceived, .findReceived])
    (other : ∀ n, s.oldestReceived = some n → rowOf n.body ≠ row) : exec row s = .next s := by
  simp only [List.mem_cons, List.not_mem_nil, or_false] at mem
  cases oldest : s.oldestReceived with
  | none =>
    obtain rfl | rfl | rfl | rfl | rfl | rfl | rfl | rfl := mem
    all_goals simp only [exec, execTakeReceived, execDeclineReceived, execClaimReceived, execTransferReceived,
      execOfferReceived, execSeekReceived, execHereReceived, execFindReceived, oldest]
  | some n =>
    have kind := other n oldest
    obtain rfl | rfl | rfl | rfl | rfl | rfl | rfl | rfl := mem
    all_goals
      simp only [exec, execTakeReceived, execDeclineReceived, execClaimReceived, execTransferReceived, execOfferReceived,
        execSeekReceived, execHereReceived, execFindReceived, oldest]
      split
      · rename_i own
        rw [own] at kind
        exact absurd rfl kind
      all_goals rfl

end

/-- Settles O43: each question by the state that supersession leaves, and the rows without their notice together. -/
theorem questionsAreAnswered : Obligations.QuestionsAreAnswered := by
  refine ⟨fun n rest seek c m s v serving rx body hv => ?_, fun r s ahead free => ⟨fun outside => ?_, fun low high known => ?_,
    fun low high new => ?_⟩, fun n rest number inCall s v serving rx body hv => ?_,
    fun n rest number s serving rx body => ?_, fun row s mem idle => ?_⟩
  · subst hv
    rw [exec_seekReceived_serving serving rx body]
    refine ⟨fun closed => ?_, fun active ahead free cell => ?_⟩
    · rw [State.takeSeek_closed fun opened => ?_]
      obtain ⟨active, ahead, free, cell⟩ := (State.seekOpen_iff _ _ _).mp opened
      simp [active, ahead, free, cell] at closed
    · have opened := ((s.supersede n).seekOpen_iff n.handset n.mark).mpr ⟨active, ahead, free, cell⟩
      refine ⟨fun o heard young => ?_, fun unheard => ?_⟩
      · rw [State.takeSeek_fresh opened heard young, State.decideOffer_overheard heard, State.offerNotice,
          (State.overheard?_some heard).2]
        rfl
      · rw [State.takeSeek_notFresh opened unheard]
        rfl
  · exact State.registerListen_refused fun admitted =>
      outside ((State.listenRefusal?_none_iff_of_ahead ahead free).mp admitted).1
  · have known : ∃ x ∈ s.mu.listens, r.sameKey x = true := by simpa only [r.sameKey_iff] using known
    have admitted := (State.listenRefusal?_none_iff_of_ahead ahead free).mpr ⟨⟨low, high⟩, .inl (List.any_eq_true.mpr known)⟩
    rw [State.registerListen_admitted admitted, placeListen_known known]
  · exact State.registerListen_new ahead free ⟨low, high⟩
      (List.any_eq_false.mpr fun x hx same => new x hx ((r.sameKey_iff x).mp same))
  · subst hv
    rw [exec_hereReceived_serving serving rx body]
    refine ⟨fun unasked => ?_, fun r f here running record => ?_⟩
    · obtain ⟨other, notThis⟩ | unsought := unasked
      · rw [if_neg fun here => ((s.addressedHere_iff n).mp here).elim other notThis]
      · rw [State.takeAnswer_unsought unsought, ite_self]
    · rw [if_pos ((s.addressedHere_iff n).mpr here), State.takeAnswer_running running record]
      refine ⟨fun another => by rw [if_neg another], fun same => ?_⟩
      rw [if_pos same]
      rfl
  · rw [exec_findReceived_serving serving rx body]
    refine ⟨fun away => by rw [State.takeFind_away away], fun i e held => ?_⟩
    obtain ⟨-, -, same⟩ := State.find?_some held
    rw [State.takeFind_held held, State.hereNotice, same]
    rfl
  · refine exec_noticeRow_idle mem fun n oldest => ?_
    obtain empty | ⟨m, rest, rx, other⟩ := idle
    · simp [State.oldestReceived, empty] at oldest
    · rw [State.oldestReceived, rx, List.head?_cons] at oldest
      cases oldest
      exact other

end Sys2Proof.Machine
end

section
/-! Station Control (chapter 10): its counters' rows, and what strobes and sync losses leave of it. Of their work only Station
Control's own piece and drain completion write it, and a drain completes only in DRAINING. -/
namespace Sys2Proof.Machine

/-! ### The quiet period's end (R171) -/

theorem exec_quietPeriodExpiry_due {s : State} (listening : s.sc.station = .listening) (last : s.sc.quiet = some 1) :
    exec .quietPeriodExpiry s = .next s.quietReachesZero := by
  simp only [exec, execQuietPeriodExpiry, listening, last, and_self, if_true]

theorem exec_quietPeriodExpiry_other {s : State} (other : s.sc.station ≠ .listening ∨ s.sc.quiet ≠ some 1) :
    exec .quietPeriodExpiry s = .next s := by
  simp only [exec, execQuietPeriodExpiry, if_neg (not_and_or.mpr other)]

theorem State.quietReachesZero_known {s : State} (known : s.tb.known = true) : s.quietReachesZero = s.becomeActive :=
  if_pos known

theorem State.quietReachesZero_unknown {s : State} (unknown : s.tb.known = false) :
    s.quietReachesZero = s.setQuiet (some 0) := if_neg (by simp [unknown])

@[simp] theorem State.becomeActive_sc (s : State) :
    s.becomeActive.sc = { s.sc with station := .active, quiet := none } := rfl

/-! ### The drain limit (R173) -/

theorem exec_drainLimitExpiry_due {s : State} (draining : s.sc.station = .draining) (last : s.sc.drain = some 1) :
    exec .drainLimitExpiry s = .next (s.completeDrain .limit) := by
  simp only [exec, execDrainLimitExpiry, draining, last, and_self, if_true]

theorem exec_drainLimitExpiry_other {s : State} (other : s.sc.station ≠ .draining ∨ s.sc.drain ≠ some 1) :
    exec .drainLimitExpiry s = .next s := by
  simp only [exec, execDrainLimitExpiry, if_neg (not_and_or.mpr other)]

/-! ### A station that does not drain keeps its Station Control -/

theorem State.silenceTick_sc (s : State) (i : Nat) : (s.silenceTick i).sc = s.sc := by
  unfold State.silenceTick
  split
  · split
    · split <;> simp
    all_goals rfl
  · rfl

theorem State.pageStrobe_sc (s : State) (h : Handset) : (s.pageStrobe h).sc = s.sc := by
  unfold State.pageStrobe
  split
  · split
    · simp
    · rfl
  · rfl

theorem State.findStrobe_sc (s : State) (r : Nat) : (s.findStrobe r).sc = s.sc := by
  unfold State.findStrobe
  split
  · split <;> simp
  · rfl

section
variable {s t : State} (staying : s.sc.station ≠ .draining) (r : Nat) (reason : Reason)
include staying

/-- Work that ends with the drain condition's test. -/
theorem State.drainTest_sc_of (same : t.sc = s.sc) : t.drainTest.sc = s.sc := by
  rw [State.drainTest_not_draining t (by rwa [same]), same]

theorem State.loseHandover_sc (i : Nat) (e : Entry) (target : Nat) : (s.loseHandover r i e target reason).sc = s.sc :=
  State.drainTest_sc_of staying (by simp)

theorem State.setupFails_sc (i : Nat) (e : Entry) (discarded : Bool) : (s.setupFails i e discarded).sc = s.sc :=
  State.drainTest_sc_of staying (by simp)

theorem State.missArrival_sc : (s.missArrival r reason).sc = s.sc := by
  unfold State.missArrival
  split
  · split
    · exact State.drainTest_sc_of staying (by simp)
    · simp
  · rfl

theorem State.releaseOut_sc : (s.releaseOut r).sc = s.sc := by
  unfold State.releaseOut
  split
  · split
    case h_4 => exact State.loseHandover_sc staying _ _ _ _ _
    all_goals simp
  · rfl

theorem State.setupStrobe_sc (i : Nat) : (s.setupStrobe i).sc = s.sc := by
  unfold State.setupStrobe
  split
  · split
    · unfold State.setupReachesZero
      split
      · exact State.setupFails_sc staying _ _ _
      · simp
    · rfl
  · rfl

theorem State.expireFallback_sc : (s.expireFallback r).sc = s.sc := by
  unfold State.expireFallback
  split
  · split
    case h_1 => exact State.loseHandover_sc staying _ _ _ _ _
    all_goals rfl
  · rfl

theorem State.outStrobe_sc : (s.outStrobe r).sc = s.sc := by
  unfold State.outStrobe
  split
  · split
    case h_4 =>
      split
      · exact State.expireFallback_sc staying r
      · simp
    all_goals split <;> simp
  · rfl

theorem State.inStrobe_sc : (s.inStrobe r).sc = s.sc := by
  unfold State.inStrobe
  split
  · split
    · split <;> simp
    · split
      · unfold State.expireArrival
        split
        · split
          · exact State.missArrival_sc staying r _
          · rfl
        · rfl
      · simp
  · rfl

theorem doLossWork_sc (w : LossWork) : (doLossWork s w).sc = s.sc := by
  cases w with
  | slotPlanner => rfl
  | measurement => rfl
  | outbound r => exact State.releaseOut_sc staying _
  | inbound r => exact State.missArrival_sc staying _ _
  | bus => simp [doLossWork]

/-- R9: a sync loss report leaves Station Control alone. -/
theorem State.lossReport_sc (loss : List LossWork) : (s.lossReport loss).sc = s.sc :=
  List.foldlRecOn (motive := fun t : State => t.sc = s.sc) _ _ rfl fun t same w _ =>
    (doLossWork_sc (by rwa [same]) w).trans same

theorem doStrobeWork_sc {w : StrobeWork} (other : w ≠ .quietPeriod) : (doStrobeWork s w).sc = s.sc := by
  cases w with
  | measurement => simp [doStrobeWork]
  | slotPlanner => simp [doStrobeWork]
  | silence i =>
    simp only [doStrobeWork]
    split
    · exact s.silenceTick_sc _
    · rfl
  | setup i => exact State.setupStrobe_sc staying _
  | page h => exact s.pageStrobe_sc h
  | findRecord r => exact s.findStrobe_sc _
  | outbound r => exact State.outStrobe_sc staying _
  | inbound r => exact State.inStrobe_sc staying _
  | quietPeriod => exact absurd rfl other
  | drainLimit => rw [doStrobeWork_drainLimit_other staying]
  | occupancy => simp [doStrobeWork, State.countOccupancy]

/-- A part of a strobe's work without Station Control's own piece. -/
theorem foldl_doStrobeWork_sc {l : List StrobeWork} (other : .quietPeriod ∉ l) : (l.foldl doStrobeWork s).sc = s.sc :=
  List.foldlRecOn (motive := fun t : State => t.sc = s.sc) _ _ rfl fun t same w mem =>
    (doStrobeWork_sc (by rwa [same]) (ne_of_mem_of_not_mem mem other)).trans same

end

/-- An ACTIVE station stays as it is at any part of a strobe's work. -/
theorem foldl_doStrobeWork_sc_active {s : State} (active : s.sc.station = .active) (l : List StrobeWork) :
    (l.foldl doStrobeWork s).sc = s.sc :=
  List.foldlRecOn (motive := fun t : State => t.sc = s.sc) _ _ rfl fun t same w _ => by
    have still : t.sc.station = .active := by rw [same, active]
    by_cases own : w = .quietPeriod
    · rw [own, doStrobeWork_quietPeriod_other (by simp [still]), same]
    · rw [doStrobeWork_sc (by simp [still]) own, same]

/-! ### A regain after the quiet period (R171) -/

theorem State.holdoffsStrobe_sc (s : State) : s.holdoffsStrobe.sc = s.sc := by rw [s.holdoffsStrobe_eq.1]

/-- R171: a strobe report that finds the mark known and the counter at 0: the work before Station Control's piece leaves
it LISTENING with its counter, the piece makes it ACTIVE, and the work after it leaves it so. -/
theorem State.strobeReport_sc_of_quiet_ended {s : State} (listening : s.sc.station = .listening) (ended : s.sc.quiet = some 0)
    (known : s.tb.known = true) (order : List StrobeWork) :
    (s.strobeReport order).sc = { s.sc with station := .active, quiet := none } := by
  obtain ⟨-, -, own, -, -⟩ := s.holdoffsStrobe.block_mem_strobeWork
  obtain ⟨before, after, split, first⟩ := List.eq_append_cons_of_mem ((mem_scheduled order _ _).mpr own)
  have kept := (State.Kept.foldl doStrobeWork kept_doStrobeWork before s.holdoffsStrobe).2
  have sc : (before.foldl doStrobeWork s.holdoffsStrobe).sc = s.sc := by
    rw [foldl_doStrobeWork_sc (by simp [s.holdoffsStrobe_sc, listening]) first, s.holdoffsStrobe_sc]
  unfold State.strobeReport
  rw [split, List.foldl_append, List.foldl_cons]
  generalize before.foldl doStrobeWork s.holdoffsStrobe = t at kept sc ⊢
  have tb : t.tb.known = true := by rw [kept, s.holdoffsStrobe_eq.1, known]
  obtain ⟨-, -, -, active⟩ := quietPeriod_beside_expiry 0 (sc ▸ listening) (sc ▸ ended)
  rw [active rfl tb, foldl_doStrobeWork_sc_active rfl after, t.becomeActive_sc, sc]

/-- R4, R6: an epoch strobe that regains or realigns finds the mark known, and a station that does not drain as it was. -/
theorem State.takeEpoch_regains {s : State} (regains : s.tb.known = false ∨ s.tb.mark ≠ 255)
    (staying : s.sc.station ≠ .draining) (loss : List LossWork) :
    (s.takeEpoch loss).tb.known = true ∧ (s.takeEpoch loss).sc = s.sc := by
  cases known : s.tb.known with
  | false =>
    rw [s.takeEpoch_unknown loss known]
    exact ⟨rfl, rfl⟩
  | true =>
    have drifted := regains.resolve_left (by simp [known])
    rw [s.takeEpoch_realigns loss known drifted]
    exact ⟨rfl, State.lossReport_sc (s := (s.postWithMark .syncLost 0 0 0 .realigned (s.tb.mark + 1)).loseMark) staying loss⟩

/-- Settles O21: the row by what the mark is, and a regain by the place of Station Control's piece in the strobe's work. -/
theorem quietPeriodMakesTheStationActive : Obligations.QuietPeriodMakesTheStationActive := by
  refine ⟨fun s listening last => ⟨fun known => ?_, fun unknown => ?_⟩, fun loss order s listening ended regains => ?_,
    fun s other => exec_quietPeriodExpiry_other other⟩
  · rw [exec_quietPeriodExpiry_due listening last, State.quietReachesZero_known known]
    rfl
  · rw [exec_quietPeriodExpiry_due listening last, State.quietReachesZero_unknown unknown]
    rfl
  · obtain ⟨known, sc⟩ := State.takeEpoch_regains regains (by simp [listening]) loss
    have counted : (s.takeEpoch loss).countFrame.sc = s.sc := by simpa using sc
    have report := State.strobeReport_sc_of_quiet_ended (s := (s.takeEpoch loss).countFrame) (counted ▸ listening)
      (counted ▸ ended) known order
    exact ⟨_, exec_epochStrobe loss order s, by rw [report, counted]⟩

end Sys2Proof.Machine
end

section
/-! Drain completion (chapters 6, 7 and 10): what it posts, what it clears, and when the drain condition completes it. -/
namespace Sys2Proof.Machine

/-! ### Lost calls (R106, R174) -/

section
variable {s : State} {i : Nat}

theorem State.loseByDrain_notEngaged (rest : ∀ e, s.entry? i = some e → e.engaged = false) : s.loseByDrain i = s := by
  unfold State.loseByDrain
  split
  · rename_i e entry
    exact if_neg (by simp [rest e entry])
  · rfl

theorem State.loseByDrain_engaged {e : Entry} (entry : s.entry? i = some e) (engaged : e.engaged = true) :
    s.loseByDrain i = s.callLost e (s.drainOther i e) .drain := by
  simp only [State.loseByDrain, entry, engaged, if_true]

variable (s i) in
theorem State.drainOther_here {e : Entry} (here : e.isSetup = true ∨ e.isInCall = true) : s.drainOther i e = 0 := by
  have staying : e.isLeaving = false ∧ e.isArriving = false := by
    obtain setup | inCall := here
    · exact (Entry.of_isSetup setup).2
    · exact (Entry.of_isInCall inCall).2
  obtain ⟨notLeaving, notArriving⟩ := staying
  simp [State.drainOther, notLeaving, notArriving]

theorem State.drainOther_leaving {e : Entry} {r : Nat} {o : OutRecord} {target : Nat} (leaving : e.isLeaving = true)
    (found : s.outOf i = some r) (record : s.outRecord? r = some o) (current : o.phase.target? = some target) :
    s.drainOther i e = target := by
  simp [State.drainOther, leaving, found, record, current]

theorem State.drainOther_arriving {e : Entry} {r : Nat} {o : InRecord} (arriving : e.isArriving = true)
    (found : s.inOf i = some r) (record : s.inRecord? r = some o) : s.drainOther i e = o.source := by
  obtain ⟨-, -, notLeaving⟩ := Entry.of_isArriving arriving
  simp [State.drainOther, notLeaving, arriving, found, record]

end

/-! ### What a completed drain leaves and posts (R174) -/

/-- R174: LEFT follows the lost calls; its count is of the entries before the drain, its mark that of the drain. -/
theorem State.completeDrain_hl (s : State) (reason : Reason) : (s.completeDrain reason).hl =
    ((List.range 64).foldl State.loseByDrain s).hl.post
      { kind := .left, handset := 0, other := 0, tag := BitVec.ofNat 16 (s.rc.table.toList.countP Option.isSome)
        reason := reason, mark := s.tb.mark, lost := 0 } := by
  have tb := congrArg State.tb (State.foldl_loseByDrain_eq (List.range 64) s)
  unfold State.completeDrain State.clearService State.entriesUsed
  generalize (List.range 64).foldl State.loseByDrain s = t at tb ⊢
  rw [State.post_hl, ← tb]

theorem State.completeDrain_sc (s : State) (reason : Reason) :
    (s.completeDrain reason).sc = { s.sc with station := .configured, drain := none } := by rw [s.completeDrain_eq]

theorem State.completeDrain_emptyOutOfService (s : State) (reason : Reason) : (s.completeDrain reason).EmptyOutOfService := by
  rw [s.completeDrain_eq]
  exact {
    table := allFree_replicate _
    finds := allFree_replicate _
    setups := rfl
    pages := rfl
    outbound := allFree_replicate _
    inbound := allFree_replicate _
    plan := State.slotEntry_cleared rfl
    changes := rfl
    moves := rfl
    beaconQ := rfl
    listens := rfl }

theorem State.completeDrain_bus (s : State) (reason : Reason) : (s.completeDrain reason).bus = s.bus.clear := by
  rw [s.completeDrain_eq]

theorem State.completeDrain_overheard (s : State) (reason : Reason) : (s.completeDrain reason).mu.overheard = [] := by
  rw [s.completeDrain_eq]

/-- Settles O22: the row and the drain condition, the calls lost one by one, and the state that is left. -/
theorem drainLimitCompletesTheDrain : Obligations.DrainLimitCompletesTheDrain := by
  refine ⟨fun s => exec_drainLimitExpiry_due, fun s reason => ⟨s.completeDrain_sc reason,
      s.completeDrain_emptyOutOfService reason, s.completeDrain_overheard reason, ?_, ?_, s.kept_completeDrain reason⟩,
    fun s draining quiet => s.drainTest_drained draining (s.drained_iff.mpr quiet), State.drainTest_engaged,
    State.drainTest_not_draining, State.completeDrain_hl, fun s i => ⟨State.loseByDrain_notEngaged,
      fun e => State.loseByDrain_engaged, fun e => s.drainOther_here i, fun e r o target => State.drainOther_leaving,
      fun e r o => State.drainOther_arriving⟩,
    fun s => exec_drainLimitExpiry_other, State.completeDrain_eq, fun b => ⟨rfl, b.discardQueue_cases⟩⟩
  · rw [s.completeDrain_bus]
    exact s.bus.clear_rest.1
  · rw [s.completeDrain_bus]
    exact s.bus.clear_queue

end Sys2Proof.Machine
end

section
/-! The event queue (chapter 11.4): what posting does to it, and the record that READ EVENT takes. -/
namespace Sys2Proof.Machine

/-! ### Posting (R184) -/

section
variable {h : HostLink} {e x : EventRecord} {before after : List EventRecord}

theorem HostLink.post_room (room : h.events.length < 32) : h.post e = { h with events := h.events ++ [e] } := by
  simp only [HostLink.post, if_pos room]

/-- R184: a record of level 2 or 3 takes the room of the oldest of level 1. -/
theorem HostLink.post_displaces (queue : h.events = before ++ x :: after) (full : 32 ≤ h.events.length) (urgent : 2 ≤ e.level)
    (displaced : x.level = 1) (oldest : ∀ y ∈ before, y.level ≠ 1) :
    h.post e = { h with events := before ++ after ++ [e], lost := lostPlusOne h.lost } := by
  have present : h.events.any (fun y => y.level == 1) = true := by simp [queue, displaced]
  have erased : h.events.eraseP (fun y => y.level == 1) = before ++ after := by
    rw [queue, List.eraseP_append_right _ fun y mem => by simp [oldest y mem], List.eraseP_cons_of_pos (by simp [displaced])]
  simp only [HostLink.post, if_neg (Nat.not_lt.mpr full), urgent, present, erased, decide_true, Bool.and_self, if_true]

theorem HostLink.post_discards (full : 32 ≤ h.events.length) (outranked : e.level ≤ 1 ∨ ∀ y ∈ h.events, y.level ≠ 1) :
    h.post e = { h with lost := lostPlusOne h.lost } := by
  have stays : ¬(decide (2 ≤ e.level) && h.events.any fun y => y.level == 1) = true := by
    simp only [Bool.and_eq_true, decide_eq_true_eq, List.any_eq_true, beq_iff_eq, not_and, not_exists]
    intro urgent y mem
    exact outranked.resolve_left (by omega) y mem
  simp only [HostLink.post, if_neg (Nat.not_lt.mpr full), if_neg stays]

end

/-! ### Taking the oldest of the highest level (R185) -/

theorem foldl_max_level_le_iff (l : List EventRecord) (m n : Nat) :
    l.foldl (fun m e => max m e.level) m ≤ n ↔ m ≤ n ∧ ∀ y ∈ l, y.level ≤ n := by
  induction l generalizing m with
  | nil => simp
  | cons x l ih => simp [ih, and_assoc]

theorem highestLevel_le_iff (l : List EventRecord) (n : Nat) : highestLevel l ≤ n ↔ ∀ y ∈ l, y.level ≤ n := by
  simp [highestLevel, foldl_max_level_le_iff]

theorem highestLevel_eq {l : List EventRecord} {e : EventRecord} (mem : e ∈ l) (top : ∀ y ∈ l, y.level ≤ e.level) :
    highestLevel l = e.level :=
  le_antisymm ((highestLevel_le_iff l _).mpr top) ((highestLevel_le_iff l _).mp le_rfl e mem)

section
variable {h : HostLink} {e : EventRecord} {before after : List EventRecord}

/-- R185: of the records of the highest level the first is the oldest. -/
theorem nextEvent?_split (lower : ∀ y ∈ before, y.level < e.level) (noHigher : ∀ y ∈ after, y.level ≤ e.level) :
    nextEvent? (before ++ e :: after) = some before.length := by
  have top : highestLevel (before ++ e :: after) = e.level := by
    refine highestLevel_eq (by simp) fun y mem => ?_
    rcases List.mem_append.mp mem with earlier | here
    · exact (lower y earlier).le
    · rcases List.mem_cons.mp here with same | later
      · exact (congrArg EventRecord.level same).le
      · exact noHigher y later
  have passed : before.findIdx? (fun y => y.level == e.level) = none :=
    List.findIdx?_eq_none_iff.mpr fun y mem => beq_false_of_ne (lower y mem).ne
  simp [nextEvent?, top, List.findIdx?_append, passed, List.findIdx?_cons]

theorem HostLink.chosenEvent_split (queue : h.events = before ++ e :: after) (lower : ∀ y ∈ before, y.level < e.level)
    (noHigher : ∀ y ∈ after, y.level ≤ e.level) : h.chosenEvent = e := by
  simp [HostLink.chosenEvent, queue, nextEvent?_split lower noHigher]

theorem HostLink.remainingEvents_split (queue : h.events = before ++ e :: after) (lower : ∀ y ∈ before, y.level < e.level)
    (noHigher : ∀ y ∈ after, y.level ≤ e.level) : h.remainingEvents = before ++ after := by
  simp [HostLink.remainingEvents, queue, nextEvent?_split lower noHigher, List.eraseIdx_append_of_length_le]

theorem HostLink.chosenEvent_empty (empty : h.events = []) : h.chosenEvent = EventRecord.nothing := by
  simp [HostLink.chosenEvent, nextEvent?, empty]

theorem HostLink.remainingEvents_empty (empty : h.events = []) : h.remainingEvents = [] := by
  simp [HostLink.remainingEvents, nextEvent?, empty]

end

/-- Settles O50: a post by the room and the levels in the queue, and the record taken by where the highest level first stands. -/
theorem eventsAreQueuedAndRead : Obligations.EventsAreQueuedAndRead := by
  refine ⟨fun h e => HostLink.post_room, fun h e x before after => HostLink.post_displaces, fun h e => HostLink.post_discards,
    fun s e before after queue lower noHigher => ?_, fun s empty => ?_, fun s => by simp [State.eventLine]⟩
  · simp only [exec, execReadEvent, State.takeEvent, HostLink.chosenEvent_split queue lower noHigher,
      HostLink.remainingEvents_split queue lower noHigher]
  · simp only [exec, execReadEvent, State.takeEvent, HostLink.chosenEvent_empty empty, HostLink.remainingEvents_empty empty,
      EventRecord.nothing, empty]

end Sys2Proof.Machine
end

section
/-! Reading the part's state (chapter 11): the forms of QUERY HANDSET and READ ENTRY. -/
namespace Sys2Proof.Machine

/-! ### QUERY HANDSET (R181) -/

section
variable {s : State} {h : Handset}

theorem exec_queryHandset_named (named : h ≠ 0) : exec (.queryHandset h) s = .next (s.report 8 (s.queryBody h)) := by
  simp only [exec, execQueryHandset, badHandset_of_ne named, Bool.false_eq_true, if_false]

theorem State.queryBody_held {i : Nat} {e : Entry} (held : s.find? h = some (i, e)) :
    s.queryBody h = .held (s.queryReport i e) := by
  simp only [State.queryBody, held]

theorem State.queryBody_overheard {o : Overheard} (away : s.find? h = none) (heard : s.overheard? h = some o) :
    s.queryBody h = .overheard o := by
  simp only [State.queryBody, away, heard]

theorem State.queryBody_unheard (away : s.find? h = none) (unheard : s.overheard? h = none) : s.queryBody h = .notHeard := by
  simp only [State.queryBody, away, unheard]

end

/-! ### READ ENTRY (R182) -/

section
variable {s : State} {index : Byte}

theorem exec_readEntry_outside (outside : 64 ≤ index.toNat) : exec (.readEntry index) s = .next (s.answer 9 .badCommand) := by
  simp only [exec, execReadEntry, if_pos outside]

theorem exec_readEntry_inside (inside : index.toNat < 64) :
    exec (.readEntry index) s = .next (s.report 9 (s.entryBody index.toNat)) := by
  simp only [exec, execReadEntry, if_neg (Nat.not_le.mpr inside)]

end

theorem State.entryBody_free {s : State} {i : Nat} (free : s.entry? i = none) : s.entryBody i = .freeEntry := by
  simp only [State.entryBody, free]

theorem State.entryBody_held {s : State} {i : Nat} {e : Entry} (entry : s.entry? i = some e) :
    s.entryBody i = .held (s.heldReport i e) := by
  simp only [State.entryBody, entry]

/-- Settles O48: the forms of each answer, by what is held, overheard or free. -/
theorem readsReportTheState : Obligations.ReadsReportTheState := by
  refine ⟨fun s command body => rfl, fun h s => ⟨fun zero => ?_, fun i e named held => ?_, fun o named away heard => ?_,
      fun named away unheard => ?_⟩, fun index s => ⟨exec_readEntry_outside, fun inside free => ?_, fun e entry => ?_⟩,
    fun s => rfl⟩
  · subst zero
    rfl
  · obtain ⟨-, -, same⟩ := State.find?_some held
    rw [exec_queryHandset_named named, State.queryBody_held held, State.queryReport, same]
    rfl
  · rw [exec_queryHandset_named named, State.queryBody_overheard away heard]
  · rw [exec_queryHandset_named named, State.queryBody_unheard away unheard]
  · rw [exec_readEntry_inside inside, State.entryBody_free free]
  · rw [exec_readEntry_inside (State.entry?_lt entry), State.entryBody_held entry]
    rfl

end Sys2Proof.Machine
end

section
/-! The host's transactions (chapter 11): what their bytes spell, and those that carry none of the thirteen commands. -/
namespace Sys2Proof.Machine

/-! ### What the bytes of a transaction spell (R178, R190) -/

theorem commandOfBytes_short {bytes : List Byte} (short : bytes.length < 64) :
    commandOfBytes bytes = .incompleteTransaction bytes.length := if_pos short

section
variable {bytes : List Byte} (complete : 64 ≤ bytes.length)
include complete

theorem handsetArgument_append (extra : List Byte) : handsetArgument (bytes ++ extra) = handsetArgument bytes := by
  simp only [handsetArgument, clockedByte_append bytes extra _ (show 1 < bytes.length by omega),
    clockedByte_append bytes extra _ (show 2 < bytes.length by omega),
    clockedByte_append bytes extra _ (show 3 < bytes.length by omega)]

theorem tagArgument_append (extra : List Byte) : tagArgument (bytes ++ extra) = tagArgument bytes := by
  simp only [tagArgument, clockedByte_append bytes extra _ (show 4 < bytes.length by omega),
    clockedByte_append bytes extra _ (show 5 < bytes.length by omega)]

theorem configArgument_append (extra : List Byte) : configArgument (bytes ++ extra) = configArgument bytes := by
  unfold configArgument
  congr 1
  refine List.foldl_ext _ _ _ fun v k mem => ?_
  have := List.mem_range.mp mem
  rw [clockedByte_append bytes extra _ (by omega)]

/-- R190: what the host clocks beyond the 64th byte is ignored. -/
theorem commandOfBytes_append (extra : List Byte) : commandOfBytes (bytes ++ extra) = commandOfBytes bytes := by
  have still : ¬(bytes ++ extra).length < 64 := by rw [List.length_append]; omega
  simp only [commandOfBytes, if_neg still, if_neg (Nat.not_lt.mpr complete), handsetArgument_append complete,
    tagArgument_append complete, configArgument_append complete,
    clockedByte_append bytes extra _ (show 0 < bytes.length by omega),
    clockedByte_append bytes extra _ (show 1 < bytes.length by omega)]

theorem commandOfBytes_configure (code : clockedByte bytes 0 = 1) :
    commandOfBytes bytes = .configure (configArgument bytes) := by
  simp only [commandOfBytes, if_neg (Nat.not_lt.mpr complete), code]
  rfl

theorem commandOfBytes_undefined (undefined : 14 ≤ (clockedByte bytes 0).toNat) :
    commandOfBytes bytes = .undefinedCommand (clockedByte bytes 0) := by
  rw [commandOfBytes, if_neg (Nat.not_lt.mpr complete)]
  split
  case h_15 => rfl
  all_goals omega

end

/-- R191: the operands that a transaction spells never contradict their row. -/
theorem commandOfBytes_wellFormed (bytes : List Byte) : (commandOfBytes bytes).wellFormed = true := by
  rcases Nat.lt_or_ge bytes.length 64 with short | complete
  · rw [commandOfBytes_short short]
    exact decide_eq_true short
  · rw [commandOfBytes, if_neg (Nat.not_lt.mpr complete)]
    split
    case h_15 =>
      simp only [Instr.wellFormed, decide_eq_true_eq, imp_false] at *
      omega
    all_goals rfl

/-- Settles O51: the tallies' commands, the transactions without a command, and the command spelt by the code in byte 0. -/
theorem talliesAndEmptyTransactions : Obligations.TalliesAndEmptyTransactions := by
  refine ⟨Tallies.get_add, fun s => rfl, fun s => ⟨_, rfl, rfl, Tallies.get_zero⟩, fun code s undefined => if_pos undefined,
    fun s => rfl, fun n s short => if_pos short, fun bytes => commandOfBytes_short,
    fun bytes extra length => commandOfBytes_append length.ge extra, fun code b1 b2 b3 b4 b5 rest long => ?_,
    fun bytes complete first => ?_, commandOfBytes_wellFormed, fun s bytes => rfl⟩
  · have complete : 64 ≤ (code :: b1 :: b2 :: b3 :: b4 :: b5 :: rest).length := by simpa using long
    refine ⟨?_, ?_, ?_, ?_, ?_, ?_, ?_, ?_, ?_, ?_, ?_, ?_, ?_, commandOfBytes_undefined complete⟩
    all_goals
      rintro rfl
      exact if_neg (Nat.not_lt.mpr complete)
  · have code : clockedByte bytes 0 = 1 := by rw [clockedByte, first, Option.getD_some]
    refine ⟨_, commandOfBytes_configure complete code, fun k b place spelt => ?_⟩
    rw [configArgument_byte bytes k place, clockedByte, spelt, Option.getD_some]

end Sys2Proof.Machine
end

section
/-! The host's records (chapters 11 and 12.3) byte by byte: flags, blocks of bytes, candidate places, and what is shifted
out. -/
namespace Sys2Proof.Machine

/-! ### Bytes made of flags, and lists made of blocks -/

theorem topFlag_eq (a : Bool) : BitVec.ofBool a ++ 0#7 = if a then (128 : Byte) else 0 := by cases a <;> rfl

theorem topFlags_eq (a b : Bool) :
    BitVec.ofBool a ++ BitVec.ofBool b ++ 0#6 = (if a then (128 : Byte) else 0) + if b then 64 else 0 := by
  cases a <;> cases b <;> rfl

theorem QueueMode.code_eq (m : QueueMode) : m.code = if m = .opened then 0 else 1 := by cases m <;> rfl

/-- In a list made of blocks of one size, block k is what the k-th element makes. -/
theorem flatMap_block {α β : Type} {f : α → List β} {n : Nat} (size : ∀ a, (f a).length = n) {l : List α} {k : Nat}
    {a : α} (place : l[k]? = some a) : ((l.flatMap f).drop (n * k)).take n = f a := by
  induction l generalizing k with
  | nil => simp at place
  | cons x l ih =>
    cases k with
    | zero =>
      obtain rfl : x = a := by simpa using place
      simp [← size x]
    | succ k =>
      have whole : n * (k + 1) = (f x).length + n * k := by rw [size, Nat.mul_succ, Nat.add_comm]
      rw [List.flatMap_cons, whole, List.drop_append, List.drop_eq_nil_of_le (by omega), List.nil_append]
      simpa using ih (by simpa using place)

/-! ### The response record and the tallies (R186, R190) -/

theorem Response.record_eq (r : Response) : r.record =
    [r.command, r.code.byte, BitVec.ofNat 8 r.index] ++ r.body.record ++ List.replicate (61 - r.body.record.length) 0 := by
  have fits := r.body.record_length_le
  simp only [Response.record, List.take_append, List.take_replicate, List.length_append, List.length_cons, List.length_nil]
  rw [List.take_of_length_le (by simp), List.take_of_length_le (by simpa using by omega), Nat.min_eq_left (by omega)]
  congr 2
  omega

theorem Tallies.toList_eq (t : Tallies) : t.toList = [Tally.attachGranted, .attachDenied, .callsUp, .callsLost, .handoversOut
    , .handoverFailures, .handoversIn, .arrivalsMissed, .noticesSent, .contentionLosses, .noticesReceived, .noticesDiscarded
    , .enquiriesDropped, .bearerOccupancy].map t.get := rfl

theorem Tallies.record_block {t : Tallies} {k : Nat} {v : BitVec 32} (place : t.toList[k]? = some v) :
    ((ResponseBody.tallies t).record.drop (4 * k)).take 4 =
      [v.extractLsb' 24 8, v.extractLsb' 16 8, v.extractLsb' 8 8, v.extractLsb' 0 8] := by
  rw [ResponseBody.record, flatMap_block (fun v => bytesOf_length 4 v.toNat) place, bytesOf_toNat32]

theorem Response.shiftedOut_length (r : Response) (n : Nat) : (r.shiftedOut n).length = n := by
  simp only [Response.shiftedOut, List.length_take, List.length_append, List.length_replicate, r.record_length]
  omega

theorem Response.shiftedOut_record (r : Response) {n k : Nat} (clocked : k < n) (inside : k < 64) :
    (r.shiftedOut n)[k]? = r.record[k]? := by
  rw [Response.shiftedOut, List.getElem?_take_of_lt clocked, List.getElem?_append_left (by rwa [r.record_length])]

theorem Response.shiftedOut_beyond (r : Response) {n k : Nat} (clocked : k < n) (beyond : 64 ≤ k) :
    (r.shiftedOut n)[k]? = some 0 := by
  rw [Response.shiftedOut, List.getElem?_take_of_lt clocked, List.getElem?_append_right (by rwa [r.record_length]),
    r.record_length, List.getElem?_replicate_of_lt (by omega)]

/-! ### The candidate places of a held entry (R182) -/

/-- The twelve bytes of the three candidate places of an entry body. -/
def candidatePlaces (l : List Candidate) : List Byte := (l.flatMap Candidate.record ++ List.replicate 12 0).take 12

theorem Candidate.record_eq (c : Candidate) : c.record =
    [BitVec.ofNat 8 c.station, BitVec.ofNat 8 (c.merit / 256), BitVec.ofNat 8 c.merit, BitVec.ofNat 8 c.freeSlots] := by
  rw [Candidate.record, bytesOf_two]
  rfl

theorem Candidate.records_length (l : List Candidate) : (l.flatMap Candidate.record).length = 4 * l.length := by
  simp [List.length_flatMap, Candidate.record_eq, Nat.mul_comm]

theorem candidatePlaces_length (l : List Candidate) : (candidatePlaces l).length = 12 := by
  simp [candidatePlaces]

theorem candidatePlaces_taken {l : List Candidate} {k : Nat} {c : Candidate} (place : k < 3) (held : l[k]? = some c) :
    ((candidatePlaces l).drop (4 * k)).take 4 = c.record := by
  have within : k < l.length := (List.getElem?_eq_some_iff.mp held).1
  have size := Candidate.records_length l
  rw [candidatePlaces, List.drop_take, List.take_take, Nat.min_eq_left (by omega),
    List.drop_append_of_le_length (by omega), List.take_append_of_le_length (by rw [List.length_drop]; omega),
    flatMap_block (fun c => by rw [Candidate.record_eq]; rfl) held]

theorem candidatePlaces_vacant {l : List Candidate} {k : Nat} (vacant : 4 * l.length ≤ k) (place : k < 12) :
    (candidatePlaces l)[k]? = some 0 := by
  have size := Candidate.records_length l
  rw [candidatePlaces, List.getElem?_take_of_lt place, List.getElem?_append_right (by omega),
    List.getElem?_replicate_of_lt (by omega)]

/-! ### The presence bits of a held entry (R181, R182) -/

/-- Eight flags in one byte, the first uppermost. -/
def flagByte (a b c d e f g h : Bool) : BitVec (1 + 1 + 1 + 1 + 1 + 1 + 1 + 1) :=
  BitVec.ofBool a ++ BitVec.ofBool b ++ BitVec.ofBool c ++ BitVec.ofBool d ++ BitVec.ofBool e ++ BitVec.ofBool f
    ++ BitVec.ofBool g ++ BitVec.ofBool h

theorem flagByte_getMsbD (a b c d e f g h : Bool) (k : Nat) :
    (flagByte a b c d e f g h).getMsbD k = ([a, b, c, d, e, f, g, h][k]?).getD false := by
  match k with
  | 0 | 1 | 2 | 3 | 4 | 5 | 6 | 7 =>
    simp only [flagByte, BitVec.getMsbD_append, BitVec.getMsbD_ofBool]
    rfl
  | k + 8 =>
    rw [BitVec.getMsbD_of_ge _ _ (Nat.le_add_left 8 k)]
    rfl

theorem flagByte_four (a b c d : Bool) : BitVec.ofBool a ++ BitVec.ofBool b ++ BitVec.ofBool c ++ BitVec.ofBool d ++ 0#4
    = flagByte a b c d false false false false := by
  cases a <;> cases b <;> cases c <;> cases d <;> rfl

/-- The byte that says which fields of a held entry are present. -/
def HeldReport.presence (r : HeldReport) : Byte :=
  flagByte r.entry.silence?.isSome r.entry.cell?.isSome r.entry.link?.isSome r.setup.isSome r.outbound.isSome r.inbound.isSome
    r.page.isSome r.find.isSome

/-- The byte that says which parts of its two handover records are present. -/
def HeldReport.parts (r : HeldReport) : Byte :=
  flagByte (r.outbound.bind (·.phase.target?)).isSome (r.outbound.bind (·.phase.newCell?)).isSome
    (r.outbound.bind (·.phase.counter?)).isSome (r.inbound.bind (·.phase.counter?)).isSome false false false false

theorem HeldReport.presence_getMsbD (r : HeldReport) (k : Nat) : r.presence.getMsbD k =
    ([r.entry.silence?.isSome, r.entry.cell?.isSome, r.entry.link?.isSome, r.setup.isSome, r.outbound.isSome, r.inbound.isSome,
      r.page.isSome, r.find.isSome][k]?).getD false := flagByte_getMsbD ..

theorem HeldReport.parts_getMsbD (r : HeldReport) (k : Nat) : r.parts.getMsbD k =
    ([(r.outbound.bind (·.phase.target?)).isSome, (r.outbound.bind (·.phase.newCell?)).isSome,
      (r.outbound.bind (·.phase.counter?)).isSome, (r.inbound.bind (·.phase.counter?)).isSome, false, false, false,
      false][k]?).getD false := flagByte_getMsbD ..

theorem pageTag_toNat (p : Option PageRecord) : (p.map (·.tag.toNat)).getD 0 = ((p.map PageRecord.tag).getD 0).toNat := by
  cases p <;> rfl

/-- Settles O49: each record with its bytes written out; the held entry's presence bits are flags of one byte, and its
candidate places, like the tallies, are blocks of four bytes. -/
theorem hostRecordsAreLaidOut : Obligations.HostRecordsAreLaidOut := by
  refine ⟨fun r => ⟨r.record_length, r.body.record_length_le, r.record_eq⟩, rfl, rfl, fun r => ?_, rfl, rfl, rfl,
    fun o => ?_,
    fun r => ⟨r.presence, r.parts, candidatePlaces ((r.outbound.map (·.phase.candidates)).getD []), ?_,
      r.presence_getMsbD 0, r.presence_getMsbD 1, r.presence_getMsbD 2, r.presence_getMsbD 3, r.presence_getMsbD 4,
      r.presence_getMsbD 5, r.presence_getMsbD 6, r.presence_getMsbD 7, r.parts_getMsbD 0, r.parts_getMsbD 1,
      r.parts_getMsbD 2, r.parts_getMsbD 3, fun k low => ?_, candidatePlaces_length _, fun k c place held => ?_,
      fun k => candidatePlaces_vacant⟩,
    fun e c tag k n => ?_, fun o l target m c n => ?_, ⟨rfl, rfl, fun n => ⟨rfl, rfl⟩⟩, rfl, fun c => rfl, fun e => ?_,
    fun t k j place => ?_, fun r n => ⟨r.shiftedOut_length n, fun k => r.shiftedOut_record, fun k => r.shiftedOut_beyond⟩,
    rfl, rfl, rfl⟩
  · simp only [ResponseBody.record, StatusReport.record, topFlag_eq, QueueMode.code_eq, bytesOf_toNat32]
    rfl
  · rw [ResponseBody.record, bytesOf_two]
    rfl
  · simp only [ResponseBody.record, HeldReport.record, flagByte_four, topFlags_eq, pageTag_toNat, bytesOf_toNat24,
      bytesOf_toNat16, Option.bind_map, Option.map_map, Function.comp_def]
    simp only [bytesOf_two, List.append_assoc]
    rfl
  · rw [r.parts_getMsbD]
    match k, low with
    | 4, _ | 5, _ | 6, _ | 7, _ | k + 8, _ => rfl
  · rw [candidatePlaces_taken place held, Candidate.record_eq]
  · refine ⟨?_, ?_, ?_, ?_, ?_⟩
    all_goals
      intro phase
      simp only [Entry.silence?, Entry.cell?, Entry.tag, Entry.link?, phase, Phase.code, and_self]
  · refine ⟨?_, ?_, ?_, ?_⟩
    all_goals
      rintro rfl
      exact ⟨rfl, rfl, rfl, rfl, rfl, rfl⟩
  · simp only [ResponseBody.record, EventRecord.record, bytesOf_toNat24, bytesOf_toNat16]
    rfl
  · refine Tallies.record_block ?_
    rw [t.toList_eq, List.getElem?_map, place, Option.map_some]

end Sys2Proof.Machine
end

section
/-! What a step runs, and which commands have a next state (the model's own stops, log 22). -/
namespace Sys2Proof.Machine

/-- Settles O1: a step takes the front of the queue, and an empty queue idles. -/
theorem stepRunsTheFrontCommand : Obligations.StepRunsTheFrontCommand := ⟨step_cons, step_idle⟩

/-! ### The two rows whose operand can contradict them (R180, R178) -/

section
variable {s : State} {code : Byte} {clocked : Nat}

theorem exec_undefinedCommand_unnamed (unnamed : 14 ≤ code.toNat) :
    exec (.undefinedCommand code) s = .next (s.answer code .badCommand) := if_pos unnamed

theorem exec_undefinedCommand_named (named : code.toNat < 14) :
    exec (.undefinedCommand code) s = .fault .notThisCommand := if_neg (Nat.not_le.mpr named)

theorem exec_incompleteTransaction_short (short : clocked < 64) :
    exec (.incompleteTransaction clocked) s = .next (s.shiftOut clocked) := if_pos short

theorem exec_incompleteTransaction_complete (complete : 64 ≤ clocked) :
    exec (.incompleteTransaction clocked) s = .fault .notThisCommand := if_neg (Nat.not_lt.mpr complete)

end

/-- No command is refused: it is well-formed and has a next state, or is ill-formed and stops with the one fault. Every row
but two answers a next state whatever its operands. -/
theorem exec_next_or_fault (i : Instr) (s : State) :
    (i.wellFormed = true ∧ ∃ t, exec i s = .next t) ∨ (i.wellFormed = false ∧ exec i s = .fault .notThisCommand) := by
  cases i with
  | undefinedCommand code =>
    rcases Nat.lt_or_ge code.toNat 14 with named | unnamed
    · exact .inr ⟨decide_eq_false (Nat.not_le.mpr named), exec_undefinedCommand_named named⟩
    · exact .inl ⟨decide_eq_true unnamed, _, exec_undefinedCommand_unnamed unnamed⟩
  | incompleteTransaction clocked =>
    rcases Nat.lt_or_ge clocked 64 with short | complete
    · exact .inl ⟨decide_eq_true short, _, exec_incompleteTransaction_short short⟩
    · exact .inr ⟨decide_eq_false (Nat.not_lt.mpr complete), exec_incompleteTransaction_complete complete⟩
  | _ => exact .inl ⟨rfl, _, rfl⟩

/-- Settles O52: a command's outcome and its well-formedness go together, row by row. -/
theorem onlyContradictoryOperandsStop : Obligations.OnlyContradictoryOperandsStop := by
  refine ⟨fun i s well => ?_, fun i s ill => ?_⟩
  · obtain ⟨-, next⟩ | ⟨ill, -⟩ := exec_next_or_fault i s
    · exact next
    · exact absurd (well.symm.trans ill) (by decide)
  · obtain ⟨well, -⟩ | ⟨-, fault⟩ := exec_next_or_fault i s
    · exact absurd (well.symm.trans ill) (by decide)
    · exact fault

end Sys2Proof.Machine
end
section
/-! The commands of station life that the host gives (chapter 10): CONFIGURE, JOIN, LEAVE and RESTART. -/
namespace Sys2Proof.Machine

section
variable {s : State}

theorem State.joined_iff (s : State) : s.joined = true ↔
    s.sc.station = .listening ∨ s.sc.station = .active ∨ s.sc.station = .draining := by
  simp [State.joined, or_assoc]

/-! ### CONFIGURE (R167, R168) -/

theorem State.idleStation_iff (s : State) : s.idleStation = true ↔
    s.sc.station = .unconfigured ∨ s.sc.station = .configured := by
  simp [State.idleStation]

/-- A station has joined exactly when it is neither UNCONFIGURED nor CONFIGURED. -/
theorem State.idleStation_eq (s : State) : s.idleStation = !s.joined := by
  unfold State.idleStation State.joined
  cases s.sc.station <;> rfl

theorem exec_configure_idle (w : ConfigWord) (idle : s.sc.station = .unconfigured ∨ s.sc.station = .configured) :
    exec (.configure w) s = .next ((s.storeConfig (configOfWord w)).answer 1 .done) := by
  simp only [exec, execConfigure, s.idleStation_iff.mpr idle, if_true]

theorem exec_configure_joined (w : ConfigWord) (joined : s.joined = true) :
    exec (.configure w) s = .next (s.answer 1 .busy) := by
  simp only [exec, execConfigure, s.idleStation_eq, joined, Bool.not_true, Bool.false_eq_true, if_false]

theorem clamp_below {lo hi v : Nat} (below : v < lo) : clamp lo hi v = lo := by
  unfold clamp
  omega

theorem clamp_above {lo hi v : Nat} (range : lo ≤ hi) (above : hi < v) : clamp lo hi v = hi := by
  unfold clamp
  omega

theorem clamp_inside {lo hi v : Nat} (low : lo ≤ v) (high : v ≤ hi) : clamp lo hi v = v := by
  unfold clamp
  omega

/-! ### JOIN (R169, R170) -/

/-- R169: the five checks, as they all pass. -/
theorem joinFailure?_none_iff (c : ConfigRecord) : joinFailure? c = none ↔
    (1 ≤ c.stationNumber ∧ c.stationNumber ≤ 48) ∧ c.scanFirstCarrier ≤ c.scanLastCarrier
      ∧ c.scanFirstSlot ≤ c.scanLastSlot ∧ c.takeTimeout + 2 ≤ c.lead ∧ c.offerWindow < c.lead := by
  unfold joinFailure?
  (repeat' split) <;> simp_all

theorem joinFailure?_one_iff (c : ConfigRecord) :
    joinFailure? c = some 1 ↔ ¬(1 ≤ c.stationNumber ∧ c.stationNumber ≤ 48) := by
  unfold joinFailure?
  (repeat' split) <;> simp_all

section
variable {c : ConfigRecord} (station : 1 ≤ c.stationNumber ∧ c.stationNumber ≤ 48)
include station

theorem joinFailure?_two (carriers : c.scanLastCarrier < c.scanFirstCarrier) : joinFailure? c = some 2 := by
  rw [joinFailure?, if_neg (not_not_intro station), if_pos (Nat.not_le.mpr carriers)]

variable (carriers : c.scanFirstCarrier ≤ c.scanLastCarrier)
include carriers

theorem joinFailure?_three (slots : c.scanLastSlot < c.scanFirstSlot) : joinFailure? c = some 3 := by
  rw [joinFailure?, if_neg (not_not_intro station), if_neg (not_not_intro carriers), if_pos (Nat.not_le.mpr slots)]

variable (slots : c.scanFirstSlot ≤ c.scanLastSlot)
include slots

theorem joinFailure?_four (lead : c.lead < c.takeTimeout + 2) : joinFailure? c = some 4 := by
  rw [joinFailure?, if_neg (not_not_intro station), if_neg (not_not_intro carriers), if_neg (not_not_intro slots),
    if_pos (Nat.not_le.mpr lead)]

theorem joinFailure?_five (lead : c.takeTimeout + 2 ≤ c.lead) (window : c.lead ≤ c.offerWindow) :
    joinFailure? c = some 5 := by
  rw [joinFailure?, if_neg (not_not_intro station), if_neg (not_not_intro carriers), if_neg (not_not_intro slots),
    if_neg (not_not_intro lead), if_pos (Nat.not_lt.mpr window)]

end

theorem exec_join_unconfigured (unconfigured : s.sc.station = .unconfigured) :
    exec .join s = .next (s.respond { command := 2, code := .configError, index := 1, body := .empty }) := by
  simp only [exec, execJoin, unconfigured]

theorem exec_join_joined (joined : s.joined = true) : exec .join s = .next (s.answer 2 .busy) := by
  rcases s.joined_iff.mp joined with station | station | station <;> simp only [exec, execJoin, station]

theorem exec_join_fails {k : Nat} (configured : s.sc.station = .configured) (fails : joinFailure? s.sc.config = some k) :
    exec .join s = .next (s.respond { command := 2, code := .configError, index := k, body := .empty }) := by
  simp only [exec, execJoin, configured, fails]

theorem exec_join_passes (configured : s.sc.station = .configured) (passes : joinFailure? s.sc.config = none) :
    exec .join s = .next (s.joinSegment.answer 2 .done) := by
  simp only [exec, execJoin, configured, passes]

theorem State.joinSegment_emptyOutOfService (s : State) : s.joinSegment.EmptyOutOfService where
  table := allFree_replicate _
  finds := allFree_replicate _
  setups := rfl
  pages := rfl
  outbound := allFree_replicate _
  inbound := allFree_replicate _
  plan := State.slotEntry_cleared rfl
  changes := rfl
  moves := rfl
  beaconQ := rfl
  listens := rfl

/-! ### LEAVE (R172) -/

theorem exec_leave_active (active : s.sc.station = .active) : exec .leave s = .next (s.startDrain.answer 3 .done) := by
  simp only [exec, execLeave, active]

theorem exec_leave_listening (listening : s.sc.station = .listening) :
    exec .leave s = .next (s.stopListening.answer 3 .done) := by
  simp only [exec, execLeave, listening]

theorem exec_leave_busy (elsewhere : s.sc.station = .unconfigured ∨ s.sc.station = .configured ∨ s.sc.station = .draining) :
    exec .leave s = .next (s.answer 3 .busy) := by
  rcases elsewhere with station | station | station <;> simp only [exec, execLeave, station]

/-! ### RESTART (R176) -/

theorem exec_restart_unconfigured (unconfigured : s.sc.station = .unconfigured) :
    exec .restart s = .next (s.answer 4 .busy) := congrArg Host.Outcome.next (if_pos unconfigured)

theorem exec_restart_taken (configured : s.sc.station ≠ .unconfigured) :
    exec .restart s = .next (s.restart.answer 4 .done) := congrArg Host.Outcome.next (if_neg configured)

theorem State.restart_emptyOutOfService (s : State) : s.restart.EmptyOutOfService where
  table := allFree_replicate _
  finds := allFree_replicate _
  setups := rfl
  pages := rfl
  outbound := allFree_replicate _
  inbound := allFree_replicate _
  plan := State.slotEntry_cleared rfl
  changes := rfl
  moves := rfl
  beaconQ := rfl
  listens := rfl

/-! ### The answer -/

/-- An answer is the Host Link's alone: what is empty stays so. -/
theorem State.EmptyOutOfService.answer (empty : s.EmptyOutOfService) (command : Byte) (code : ResponseCode) :
    (s.answer command code).EmptyOutOfService := { empty with }

end

/-- Settles O45: each station state's row, the five checks in order, and a record read byte by byte. -/
theorem configureAndJoin : Obligations.ConfigureAndJoin := by
  refine ⟨fun s command code => rfl, fun w s => ⟨exec_configure_idle w, exec_configure_joined w, configOfWord_inRange w, rfl⟩,
    fun lo hi v range => ⟨clamp_below, clamp_above range, clamp_inside⟩,
    fun s => ⟨exec_join_unconfigured, exec_join_joined, fun k => exec_join_fails, fun configured passes => ?_⟩,
    fun c => ⟨joinFailure?_none_iff c, joinFailure?_one_iff c, fun station => ⟨joinFailure?_two station, fun carriers =>
      ⟨joinFailure?_three station carriers, fun slots => ⟨joinFailure?_four station carriers slots,
        joinFailure?_five station carriers slots⟩⟩⟩⟩,
    fun w byte pair bytes pairs => ?_⟩
  · obtain ⟨rx, mode, yieldCount⟩ := s.bus.clear_rest
    exact ⟨_, exec_join_passes configured passes, rfl, rfl, fun c => worstMap_getD (mapPlace c), rfl,
      s.joinSegment_emptyOutOfService.answer 2 .done, rx, yieldCount, mode, s.bus.clear_queue, rfl, rfl, rfl, rfl, rfl, rfl,
      rfl⟩
  · obtain rfl : byte = configByte w := funext bytes
    obtain rfl : pair = configPair w := funext pairs
    simp only [configOfWord, beq_iff_eq]

/-- Settles O46: each station state's row; what is left is empty, and the bus is left as a discard leaves it. -/
theorem leaveAndRestart : Obligations.LeaveAndRestart := by
  refine ⟨fun s => ⟨exec_leave_active, fun listening => ?_, exec_leave_busy⟩,
    fun s => ⟨exec_restart_unconfigured, fun configured => ?_⟩⟩
  all_goals obtain ⟨rx, mode, yieldCount⟩ := s.bus.clear_rest
  · exact ⟨_, exec_leave_listening listening, rfl, rx, mode, yieldCount, s.bus.clear_queue⟩
  · exact ⟨_, exec_restart_taken configured, rfl, rfl, s.restart_emptyOutOfService.answer 4 .done,
      fun c => worstMap_getD (mapPlace c), rfl, rx, mode, yieldCount, s.bus.clear_queue, rfl, rfl, rfl, rfl, rfl, rfl, rfl⟩

end Sys2Proof.Machine
end

section
/-! The plain shared operations (chapters 2, 4 to 6, 8, 9 and 11): what a lookup answers, which place a free record is, what
a slot's write does to its standing MOVE, and what goes with an entry, a call or a page. -/
namespace Sys2Proof.Machine

/-! ### Places of a table -/

section
variable {α : Type} {n : Nat} {v : Vector (Option α) n} {p : Option α → Bool} {P : α → Prop}

/-- A place that a lookup finds holds what is looked for, and no lower place does. -/
theorem ownedPlace_some (owned : ∀ a, p (some a) = true ↔ P a) (vacant : p none = false) {k : Nat}
    (found : v.toList.findIdx? p = some k) :
    (∃ a, (v[k]?).join = some a ∧ P a) ∧ ∀ (j : Nat) a, j < k → (v[j]?).join = some a → ¬P a := by
  obtain ⟨-, here, lower⟩ := (firstPlace_some v p k).mp found
  constructor
  · cases place : (v[k]?).join with
    | none => rw [place, vacant] at here; cases here
    | some a => exact ⟨a, rfl, (owned a).mp (place ▸ here)⟩
  · intro j a below place holds
    have other := lower j below
    rw [place, (owned a).mpr holds] at other
    cases other

/-- A lookup finds no place exactly where none holds what is looked for. -/
theorem ownedPlace_none (owned : ∀ a, p (some a) = true ↔ P a) (vacant : p none = false) :
    v.toList.findIdx? p = none ↔ ∀ (k : Nat) a, (v[k]?).join = some a → ¬P a := by
  rw [firstPlace_none]
  constructor
  · intro nowhere k a place holds
    have within : k < n := by
      by_contra outside
      simp [Vector.getElem?_eq_none (Nat.le_of_not_lt outside)] at place
    have other := nowhere k within
    rw [place, (owned a).mpr holds] at other
    cases other
  · intro nowhere k _
    cases place : (v[k]?).join with
    | none => exact vacant
    | some a => exact Bool.eq_false_iff.mpr fun here => nowhere k a place ((owned a).mp here)

/-- The free place found is the lowest (log 15). -/
theorem freePlace_iff (k : Nat) : v.toList.findIdx? Option.isNone = some k ↔
    k < n ∧ (v[k]?).join = none ∧ ∀ j, j < k → (v[j]?).join ≠ none := by
  simp only [firstPlace_some, Option.isNone_iff_eq_none, Bool.eq_false_iff, ne_eq]

end

/-! ### Lookups (R70, R88, R96, R127, R155) -/

section
variable {s : State} {h : Handset} {i r : Nat}

theorem holdsHandset_iff (e : Entry) : holdsHandset h (some e) = true ↔ e.handset = h := beq_iff_eq

theorem findsHandset_iff (f : FindRecord) : findsHandset h (some f) = true ↔ f.handset = h := beq_iff_eq

theorem outOwnedBy_iff (o : OutRecord) : outOwnedBy i (some o) = true ↔ o.entry = i := beq_iff_eq

theorem inOwnedBy_iff (o : InRecord) : inOwnedBy i (some o) = true ↔ o.entry = i := beq_iff_eq

theorem State.find?_lowest {e : Entry} (found : s.find? h = some (i, e)) :
    ∀ j f, j < i → s.entry? j = some f → f.handset ≠ h := by
  obtain ⟨lookup, -, -⟩ := State.find?_some found
  exact (ownedPlace_some holdsHandset_iff rfl lookup).2

theorem State.find?_eq_none_iff (s : State) (h : Handset) :
    s.find? h = none ↔ ∀ i e, s.entry? i = some e → e.handset ≠ h := by
  rw [State.find?_none_iff]
  exact ownedPlace_none holdsHandset_iff rfl

theorem State.isHeld_iff_find? (s : State) (h : Handset) : s.isHeld h = true ↔ s.find? h ≠ none := by
  rw [Ne, State.find?_none_iff]
  exact Option.isSome_iff_ne_none

theorem State.outOf_lowest (found : s.outOf i = some r) : (∃ o, s.outRecord? r = some o ∧ o.entry = i)
    ∧ ∀ q o, q < r → s.outRecord? q = some o → o.entry ≠ i := ownedPlace_some outOwnedBy_iff rfl found

theorem State.inOf_lowest (found : s.inOf i = some r) : (∃ o, s.inRecord? r = some o ∧ o.entry = i)
    ∧ ∀ q o, q < r → s.inRecord? q = some o → o.entry ≠ i := ownedPlace_some inOwnedBy_iff rfl found

theorem State.findFor_some (running : s.findFor h = some r) : ∃ f, s.findRecord? r = some f ∧ f.handset = h :=
  (ownedPlace_some findsHandset_iff rfl running).1

theorem State.findFor_none_iff (s : State) (h : Handset) :
    s.findFor h = none ↔ ∀ r f, s.findRecord? r = some f → f.handset ≠ h := ownedPlace_none findsHandset_iff rfl

/-- R127: an outbound record is named by the handset of its entry and by its seek number. -/
theorem State.outFor?_iff (s : State) (h : Handset) (seek : BitVec 8) (r : Nat) (o : OutRecord) :
    s.outFor? h seek = some (r, o) ↔
      ∃ i e, s.find? h = some (i, e) ∧ s.outOf i = some r ∧ s.outRecord? r = some o ∧ o.seek = seek := by
  constructor
  · intro named
    obtain ⟨record, number⟩ := State.outFor?_some named
    unfold State.outFor? at named
    split at named
    · rename_i i lookup
      obtain ⟨e, entry, -⟩ := State.lookup_some lookup
      split at named
      · rename_i q found
        obtain ⟨p, -, chosen⟩ := Option.bind_eq_some_iff.mp named
        split at chosen
        · cases chosen
          exact ⟨i, e, State.find?_of_lookup lookup entry, found, record, number⟩
        · cases chosen
      · cases named
    · cases named
  · rintro ⟨i, e, held, found, record, number⟩
    obtain ⟨lookup, -, -⟩ := State.find?_some held
    simp only [State.outFor?, lookup, found, record, Option.bind_some, number, beq_self_eq_true, if_true]

/-! ### Lookups in a list (R62, R96, R99) -/

theorem State.page?_none_iff (s : State) (h : Handset) : s.page? h = none ↔ ∀ p ∈ s.cc.pages, p.handset ≠ h := by
  simp [State.page?]

theorem State.overheard?_none_iff (s : State) (h : Handset) :
    s.overheard? h = none ↔ ∀ o ∈ s.mu.overheard, o.handset ≠ h := by
  simp [State.overheard?]

theorem State.setup?_some {x : SetupRecord} (found : s.setup? i = some x) : x ∈ s.cc.setups ∧ x.entry = i :=
  ⟨List.mem_of_find?_eq_some found, by simpa using List.find?_some found⟩

theorem State.setup?_none_iff (s : State) (i : Nat) : s.setup? i = none ↔ ∀ x ∈ s.cc.setups, x.entry ≠ i := by
  simp [State.setup?]

/-! ### The slot plan (R18, R33) -/

/-- R33: a slot's write ends its standing MOVE but for BEARER of the MOVE's handset. -/
theorem State.mem_moves_writeSlot (s : State) (slot : Nat) (e : SlotEntry) (m : Move) :
    m ∈ (s.writeSlot slot e).sp.moves ↔ m ∈ s.sp.moves ∧ (m.slot = slot → ∃ carrier, e = .bearer carrier m.handset) := by
  rw [State.writeSlot_sp, SlotPlanner.write, List.mem_filter, ← SlotEntry.isBearerFor_iff]
  by_cases same : m.slot = slot <;> simp [same]

theorem State.committed_eq (s : State) : s.committed = s.sp.plan.toList.countP fun e => e.owner? != none := by
  refine congrArg (List.countP · s.sp.plan.toList) (funext fun e => ?_)
  unfold SlotEntry.isCommitted
  cases e.owner? <;> rfl

/-! ### What goes with an entry, a call or a page (R72, R102, R143, R160) -/

theorem State.freeEntry_none (free : s.entry? i = none) : s.freeEntry i = s := by
  simp only [State.freeEntry, free]

theorem State.releaseCall_bearer {e : Entry} {c : Cell} (cell : e.cell? = some c) (s : State) (i : Nat) :
    s.releaseCall i e = (((s.freeSlot c.slot).dropSetup i).dropOut i).dropIn i := by
  simp only [State.releaseCall, State.freeBearer, cell]

theorem State.releaseCall_noBearer {e : Entry} (cell : e.cell? = none) (s : State) (i : Nat) :
    s.releaseCall i e = ((s.dropSetup i).dropOut i).dropIn i := by
  simp only [State.releaseCall, State.freeBearer, cell]

theorem State.dropOut_none (none : s.outOf i = none) : s.dropOut i = s := by
  simp only [State.dropOut, none]

theorem State.dropOut_some (found : s.outOf i = some r) : s.dropOut i = s.setOut r none := by
  simp only [State.dropOut, found]

theorem State.dropIn_none (none : s.inOf i = none) : s.dropIn i = s := by
  simp only [State.dropIn, none]

theorem State.dropIn_some (found : s.inOf i = some r) : s.dropIn i = s.setIn r none := by
  simp only [State.dropIn, found]

theorem State.pageFails_none (unpaged : s.page? h = none) (reason : Reason) : s.pageFails h reason = s := by
  simp only [State.pageFails, unpaged]

end

/-! ### Records written (R88, R127, R155) -/

section
variable (s : State) {r q : Nat}

theorem State.outRecord?_setOut_self (o : Option OutRecord) (place : r < 4) : (s.setOut r o).outRecord? r = o := by
  simp [State.outRecord?_setOut, place]

theorem State.outRecord?_setOut_other (o : Option OutRecord) (other : q ≠ r) :
    (s.setOut r o).outRecord? q = s.outRecord? q := by simp [State.outRecord?_setOut, other]

theorem State.inRecord?_setIn_self (o : Option InRecord) (place : r < 4) : (s.setIn r o).inRecord? r = o := by
  simp [State.inRecord?_setIn, place]

theorem State.inRecord?_setIn_other (o : Option InRecord) (other : q ≠ r) :
    (s.setIn r o).inRecord? q = s.inRecord? q := by simp [State.inRecord?_setIn, other]

theorem State.findRecord?_setFind_self (f : Option FindRecord) (place : r < 4) : (s.setFind r f).findRecord? r = f := by
  simp [State.findRecord?_setFind, place]

theorem State.findRecord?_setFind_other (f : Option FindRecord) (other : q ≠ r) :
    (s.setFind r f).findRecord? q = s.findRecord? q := by simp [State.findRecord?_setFind, other]

end

/-- Settles O10: each operation by its own equation, each lookup by the place it finds, one clause after the other. -/
theorem sharedOperationsDoWhatTheyName : Obligations.SharedOperationsDoWhatTheyName := by
  refine ⟨fun s kind h other tag reason => rfl, fun s k => rfl,
    fun s i e => ⟨s.entry?_setEntry_self i e, fun j => s.entry?_setEntry_other i j e, rfl⟩,
    fun s r o => ⟨s.outRecord?_setOut_self o, fun q => s.outRecord?_setOut_other o, rfl⟩,
    fun s r o => ⟨s.inRecord?_setIn_self o, fun q => s.inRecord?_setIn_other o, rfl⟩,
    fun s r f => ⟨s.findRecord?_setFind_self f, fun q => s.findRecord?_setFind_other f, rfl⟩,
    fun s slot e => ⟨s.slotEntry_writeSlot_self slot e, fun k => s.slotEntry_writeSlot_other slot k e,
      s.mem_moves_writeSlot slot e, rfl⟩,
    fun s h => ⟨fun i e found => ?_,
      s.find?_eq_none_iff h, s.isHeld_iff_find? h⟩,
    fun s i => ⟨fun r => State.outOf_lowest, s.outOf_none_iff i, fun r => State.inOf_lowest, s.inOf_none_iff i⟩,
    State.outFor?_iff,
    fun s h => ⟨fun r => State.findFor_some, s.findFor_none_iff h⟩,
    fun s h => ⟨fun p => State.page?_some, s.page?_none_iff h, fun o => State.overheard?_some, s.overheard?_none_iff h⟩,
    State.fresh_iff,
    fun s i => ⟨fun x => State.setup?_some, s.setup?_none_iff i⟩,
    State.committed_eq,
    fun s k => ⟨freePlace_iff k, freePlace_iff k, freePlace_iff k, freePlace_iff k⟩,
    fun s i => ⟨State.freeEntry_none, s.freeEntry_some i⟩,
    fun s i e => ⟨fun c cell => s.releaseCall_bearer cell i, fun cell => s.releaseCall_noBearer cell i⟩,
    fun s i => ⟨rfl, State.dropOut_none, fun r => State.dropOut_some, State.dropIn_none, fun r => State.dropIn_some⟩,
    fun s e other reason => rfl, fun s h => rfl,
    fun s h reason => ⟨fun unpaged => State.pageFails_none unpaged reason, fun p found => State.pageFails_found found reason⟩,
    fun s c => rfl, fun s => rfl⟩
  obtain ⟨-, entry, same⟩ := State.find?_some found
  exact ⟨entry, same, State.find?_lowest found⟩

end Sys2Proof.Machine
end

section
/-! Burst reports as the part reads them and the plan in force asks for them, and the frame plan record (chapters 2 and 12.2).
-/
namespace Sys2Proof.Machine

open BitVec (extractLsb'_append_eq_of_le extractLsb'_append_eq_of_add_le extractLsb'_append_eq_right extractLsb'_eq_self)

/-! ### The burst report record (R189, R191) -/

theorem Origin.ofCode_eq (c : BitVec 2) :
    Origin.ofCode c = if c = 0 then .none else if c = 1 then .handset else .station := by
  simp only [Origin.ofCode, beq_iff_eq]

/-- R191: the kinds 0, 6 and 7 are no message. -/
theorem BurstMessage.ofCode_none {k : BitVec 3} (kind : k = 0 ∨ k = 6 ∨ k = 7) (argument : BitVec 16) :
    BurstMessage.ofCode k argument = .none := by
  rcases kind with rfl | rfl | rfl <;> rfl

section
variable {w : BurstWord}

theorem Burst.ofWord_readable (sync : w.getLsbD 55 = true) (check : w.getLsbD 54 = true) (present : w.getLsbD 45 = true) :
    (Burst.ofWord w).identity = (if w.extractLsb' 16 24 = 0 then none else some (w.extractLsb' 16 24))
    ∧ (Burst.ofWord w).message = BurstMessage.ofCode (w.extractLsb' 40 3) (w.extractLsb' 0 16) := by
  by_cases zero : w.extractLsb' 16 24 = 0 <;> simp [Burst.ofWord, sync, check, present, zero]

theorem Burst.ofWord_unreadable (missing : w.getLsbD 55 = false ∨ w.getLsbD 54 = false ∨ w.getLsbD 45 = false) :
    (Burst.ofWord w).identity = none ∧ (Burst.ofWord w).message = .none := by
  have unread : (w.getLsbD 55 && w.getLsbD 54 && w.getLsbD 45) = false := by
    rcases missing with missing | missing | missing <;> simp only [missing, Bool.false_and, Bool.and_false]
  simp only [Burst.ofWord, unread, Bool.false_and, Bool.false_eq_true, if_false, and_self]

end

section
variable {w : BurstWord} {slot : BitVec 4} {u0 : BitVec 1} {carrier : BitVec 3} {sync check : Bool} {level : BitVec 6}
  {origin : BitVec 2} {present : Bool} {u1 : BitVec 2} {kind : BitVec 3} {identity : BitVec 24} {argument : BitVec 16}
  (laid : w = slot ++ u0 ++ carrier ++ BitVec.ofBool sync ++ BitVec.ofBool check ++ level ++ origin ++ BitVec.ofBool present
    ++ u1 ++ kind ++ identity ++ argument)
include laid

/-- Where the 8 bytes of a burst report hold its numbers. -/
theorem burstWord_numbers : w.extractLsb' 60 4 = slot ∧ w.extractLsb' 56 3 = carrier ∧ w.extractLsb' 48 6 = level
    ∧ w.extractLsb' 46 2 = origin ∧ w.extractLsb' 40 3 = kind ∧ w.extractLsb' 16 24 = identity
    ∧ w.extractLsb' 0 16 = argument := by
  subst laid
  simp (disch := omega) only [extractLsb'_append_eq_of_le, -Nat.reduceAdd]
  exact ⟨extractLsb'_eq_self, extractLsb'_append_eq_right, extractLsb'_append_eq_right, extractLsb'_append_eq_right,
    extractLsb'_append_eq_right, extractLsb'_append_eq_right, extractLsb'_append_eq_right⟩

/-- Where the 8 bytes of a burst report hold its flags. -/
theorem burstWord_flags : w.getLsbD 55 = sync ∧ w.getLsbD 54 = check ∧ w.getLsbD 45 = present := by
  subst laid
  simp (disch := omega) only [BitVec.getLsbD_append, if_pos, if_neg, BitVec.getLsbD_ofBool]
  exact ⟨rfl, rfl, rfl⟩

end

/-- R57: a report names a handset when its identity is readable, is not 0, and its origin is a handset. -/
theorem Burst.handset?_ofWord (w : BurstWord) : (Burst.ofWord w).handset? =
    if w.getLsbD 55 = true ∧ w.getLsbD 54 = true ∧ w.getLsbD 45 = true ∧ w.extractLsb' 46 2 = 1 ∧ w.extractLsb' 16 24 ≠ 0
    then some (w.extractLsb' 16 24) else none := by
  have origin : (Burst.ofWord w).handset? = if w.extractLsb' 46 2 = 1 then (Burst.ofWord w).identity else none := by
    have code : ∀ c : BitVec 2, (Origin.ofCode c == .handset) = decide (c = 1) := by decide
    simp only [Burst.handset?, Burst.ofWord, code, decide_eq_true_eq]
  rw [origin]
  by_cases readable : w.getLsbD 55 = true ∧ w.getLsbD 54 = true ∧ w.getLsbD 45 = true
  · obtain ⟨sync, check, present⟩ := readable
    rw [(Burst.ofWord_readable sync check present).1]
    simp only [sync, check, present, true_and, ite_and, ite_not, ne_eq]
  · have missing : w.getLsbD 55 = false ∨ w.getLsbD 54 = false ∨ w.getLsbD 45 = false := by
      simpa only [not_and_or, Bool.not_eq_true] using readable
    rw [(Burst.ofWord_unreadable missing).1, ite_self,
      if_neg fun ⟨sync, check, present, _⟩ => readable ⟨sync, check, present⟩]

/-! ### A report taken as a bearer's (R35, R39) -/

section
variable {b : Burst} {h : Handset}

theorem Burst.forHandset_stranger (sync : b.sync = true) (check : b.check = true)
    (stranger : b.origin = .station ∨ ∃ x, b.identity = some x ∧ x ≠ h) : b.forHandset h =
      { sync := false, check := true, level := 0, good := false, clear := decide (b.message = .clear) } := by
  have strange : (b.origin == .station || (b.identity.isSome && b.identity != some h)) = true := by
    rcases stranger with station | ⟨x, identity, other⟩
    · simp [station]
    · simp [identity, other]
  simp only [Burst.forHandset, sync, check, strange, Bool.and_self, Bool.not_true, Bool.and_false, Bool.false_and,
    Bool.false_eq_true, if_false]
  rfl

theorem Burst.forHandset_lost (lost : b.sync = false) (h : Handset) : b.forHandset h =
    { sync := false, check := b.check, level := 0, good := false, clear := decide (b.message = .clear) } := by
  simp only [Burst.forHandset, lost, Bool.false_and, Bool.false_eq_true, if_false]
  rfl

theorem Burst.forHandset_own (sync : b.sync = true)
    (own : ¬(b.check = true ∧ (b.origin = .station ∨ ∃ x, b.identity = some x ∧ x ≠ h))) : b.forHandset h =
      { sync := true, check := b.check, level := b.level, good := decide (b.check = true ∧ b.identity = some h)
        clear := decide (b.message = .clear) } := by
  have familiar : (b.check && (b.origin == .station || (b.identity.isSome && b.identity != some h))) = false := by
    refine Bool.eq_false_iff.mpr fun strange => own ?_
    cases identity : b.identity <;> simpa [identity] using strange
  simp only [Burst.forHandset, sync, familiar, Bool.true_and, Bool.not_false, if_true, Bool.decide_and,
    Bool.decide_eq_true]
  simp only [beq_eq_decide]

end

/-! ### The frame plan record (R189) -/

theorem bytesOf_toNat64 (v : BitVec 64) : bytesOf 8 v.toNat =
    [v.extractLsb' 56 8, v.extractLsb' 48 8, v.extractLsb' 40 8, v.extractLsb' 32 8, v.extractLsb' 24 8, v.extractLsb' 16 8,
      v.extractLsb' 8 8, v.extractLsb' 0 8] := by
  simp [bytesOf, List.range_succ, ← byte_of_div]

theorem SentMessage.record_length (m : SentMessage) : m.record.length = 8 := bytesOf_length 8 _

theorem SentMessage.record_eq (m : SentMessage) : m.record =
    [BitVec.ofNat 4 m.slot ++ m.message.code, m.message.handset.extractLsb' 16 8, m.message.handset.extractLsb' 8 8,
      m.message.handset.extractLsb' 0 8, m.message.argument.extractLsb' 24 8, m.message.argument.extractLsb' 16 8,
      m.message.argument.extractLsb' 8 8, m.message.argument.extractLsb' 0 8] := by
  rw [SentMessage.record, bytesOf_toNat64]
  simp (disch := omega) only [extractLsb'_append_eq_of_le, extractLsb'_append_eq_of_add_le, Nat.reduceSub]
  exact congrArg (· :: _) extractLsb'_eq_self

/-- The bytes that the frame plan record gives the 16 slots. -/
def SlotPlanner.slotBytes (p : SlotPlanner) : List Byte :=
  p.inForce.toList.zipIdx.map fun e => e.1.record (p.sent.countP fun m => m.slot == e.2)

theorem SlotPlanner.radioRecord_eq (p : SlotPlanner) :
    p.radioRecord = BitVec.ofNat 8 p.sent.length :: (p.slotBytes ++ p.sent.flatMap SentMessage.record) := rfl

theorem SlotPlanner.slotBytes_length (p : SlotPlanner) : p.slotBytes.length = 16 := by
  simp [SlotPlanner.slotBytes]

theorem SlotPlanner.slotBytes_getElem? {p : SlotPlanner} {k : Nat} {slot : PlanSlot} (planned : p.inForce[k]? = some slot) :
    p.slotBytes[k]? = some (slot.record (p.sent.countP fun m => m.slot == k)) := by
  have listed : p.inForce.toList[k]? = some slot := by simpa using planned
  simp [SlotPlanner.slotBytes, List.getElem?_zipIdx, listed]

theorem SlotPlanner.radioRecord_length (p : SlotPlanner) : p.radioRecord.length = 17 + 8 * p.sent.length := by
  have messages : (p.sent.flatMap SentMessage.record).length = 8 * p.sent.length := by
    simp [List.length_flatMap, SentMessage.record_length, Nat.mul_comm]
  simp only [SlotPlanner.radioRecord_eq, List.length_cons, List.length_append, SlotPlanner.slotBytes_length, messages]
  omega

theorem SlotPlanner.radioRecord_slot {p : SlotPlanner} {k : Nat} {slot : PlanSlot} (place : k < 16)
    (planned : p.inForce[k]? = some slot) :
    p.radioRecord[k + 1]? = some (slot.record (p.sent.countP fun m => m.slot == k)) := by
  rw [SlotPlanner.radioRecord_eq, List.getElem?_cons_succ, List.getElem?_append_left (by rwa [p.slotBytes_length]),
    SlotPlanner.slotBytes_getElem? planned]

/-- The message records stand behind the slots in the order sent, 8 bytes each. -/
theorem SlotPlanner.radioRecord_message {p : SlotPlanner} {k : Nat} {m : SentMessage} (sent : p.sent[k]? = some m) :
    (p.radioRecord.drop (17 + 8 * k)).take 8 = m.record := by
  have behind : p.radioRecord.drop (17 + 8 * k) = (p.sent.flatMap SentMessage.record).drop (8 * k) := by
    rw [← List.drop_drop, SlotPlanner.radioRecord_eq, List.drop_succ_cons,
      List.drop_left' p.slotBytes_length]
  rw [behind, flatMap_block SentMessage.record_length sent]

end Sys2Proof.Machine
end

section
/-! Burst reports that the plan in force did not ask for, that are another row's, or that no block takes (chapter 2). -/
namespace Sys2Proof.Machine

section
variable {s x : State} {b : Burst} {w : BurstWord} {h : Handset}

/-! ### Reports that are not accepted (R34) -/

/-- R34: a carrier other than the one that the plan in force gives the slot. -/
theorem PlanRole.carrier?_other {r : PlanRole} {carrier : Nat}
    (other : ∃ c, c ≠ carrier ∧ (r = .beacon c ∨ (∃ h, r = .bearer c h) ∨ (∃ h, r = .held c h) ∨ ∃ q, r = .listen c q)) :
    ∃ c, r.carrier? = some c ∧ c ≠ carrier := by
  obtain ⟨c, apart, rfl | ⟨h, rfl⟩ | ⟨h, rfl⟩ | ⟨q, rfl⟩⟩ := other <;> exact ⟨c, rfl, apart⟩

section
variable (unaccepted : s.accepts b = false)
include unaccepted

theorem State.listenBurst_unaccepted : s.listenBurst b = s := by
  unfold State.listenBurst
  split <;> simp [unaccepted]

theorem State.beaconBurst_unaccepted (k : UplinkKind) : s.beaconBurst k b = s := by
  unfold State.beaconBurst
  split <;> simp [unaccepted]

theorem State.bearerBurst_unaccepted : s.bearerBurst b = s := by
  unfold State.bearerBurst
  split <;> simp [unaccepted]

theorem State.heldBurst_unaccepted : s.heldBurst b = s := by
  unfold State.heldBurst
  split <;> simp [unaccepted]

end

/-! ### Reports of another row (log 11) -/

theorem State.listenBurst_otherRole (other : ∀ c r, (s.planned b.slot).role ≠ .listen c r) : s.listenBurst b = s := by
  unfold State.listenBurst
  split
  case h_1 c r role => exact absurd role (other c r)
  all_goals rfl

theorem State.bearerBurst_otherRole (other : ∀ c h, (s.planned b.slot).role ≠ .bearer c h) : s.bearerBurst b = s := by
  unfold State.bearerBurst
  split
  case h_1 c h role => exact absurd role (other c h)
  all_goals rfl

theorem State.heldBurst_otherRole (other : ∀ c h, (s.planned b.slot).role ≠ .held c h) : s.heldBurst b = s := by
  unfold State.heldBurst
  split
  case h_1 c h role => exact absurd role (other c h)
  all_goals rfl

theorem State.beaconBurst_otherRole (other : ∀ c, (s.planned b.slot).role ≠ .beacon c) (k : UplinkKind) :
    s.beaconBurst k b = s := by
  unfold State.beaconBurst
  split
  case h_1 c role => exact absurd role (other c)
  all_goals rfl

theorem Burst.ofRow_uplink {u : Uplink} (message : b.message.uplink? = some u) (k : UplinkKind) :
    b.ofRow k = (u.kind == k) := by
  simp only [Burst.ofRow, message]

theorem Burst.ofRow_noUplink (message : b.message.uplink? = none) (k : UplinkKind) : b.ofRow k = true := by
  simp only [Burst.ofRow, message]

/-- An uplink message is its own row's alone. -/
theorem State.beaconBurst_otherMessage {u : Uplink} (message : b.message.uplink? = some u) {k : UplinkKind}
    (other : (u.kind == k) = false) : s.beaconBurst k b = s := by
  unfold State.beaconBurst
  split
  · rw [Burst.ofRow_uplink message, other, Bool.and_false, if_neg Bool.false_ne_true]
  all_goals rfl

/-! ### Reports that are only marked (R35, R69, R95) -/

theorem State.routeUplink_noUplink (message : b.message.uplink? = none) : s.routeUplink b = s := by
  unfold State.routeUplink
  split
  · cases b.handset? <;> simp only [message]
  · rfl

theorem State.routeUplink_unnamed (unnamed : b.handset? = none) : s.routeUplink b = s := by
  simp only [State.routeUplink, unnamed, ite_self]

theorem State.routeUplink_outOfService (outOfService : s.serving = false) : s.routeUplink b = s := by
  simp only [State.routeUplink, outOfService, Bool.false_eq_true, if_false]

section
variable (asks : s.BeaconAsks b)
include asks

theorem State.beaconBurst_noUplink (message : b.message.uplink? = none) (k : UplinkKind) :
    s.beaconBurst k b = s.markReported b.slot := by
  rw [s.beaconBurst_asks k b asks (Burst.ofRow_noUplink message k), State.routeUplink_noUplink message]

variable {u : Uplink} (message : b.message.uplink? = some u)
include message

theorem State.beaconBurst_unnamed (unnamed : b.handset? = none) : s.beaconBurst u.kind b = s.markReported b.slot := by
  rw [s.beaconBurst_asks u.kind b asks (by rw [Burst.ofRow_uplink message, beq_self_eq_true]),
    State.routeUplink_unnamed unnamed]

theorem State.beaconBurst_outOfService (outOfService : s.serving = false) :
    s.beaconBurst u.kind b = s.markReported b.slot := by
  rw [s.beaconBurst_asks u.kind b asks (by rw [Burst.ofRow_uplink message, beq_self_eq_true])]
  exact State.routeUplink_outOfService outOfService

end

theorem State.listenBurst_unjoined (asks : s.ListenAsks b) (unjoined : s.joined = false) :
    s.listenBurst b = s.markReported b.slot := by
  obtain ⟨request, planned⟩ := asks
  have unjoined' : (s.markReported b.slot).joined = false := unjoined
  simp [State.listenBurst, planned, State.accepts, PlanRole.carrier?, State.routeListen, unjoined']

/-- R35: the slot plan as it stands has given the slot away. -/
theorem State.stillCarries_markReported (gone : ∀ c, s.slotEntry b.slot ≠ .bearer c h ∧ s.slotEntry b.slot ≠ .held c h) :
    (s.markReported b.slot).stillCarries b.slot h = false := by
  refine Bool.eq_false_iff.mpr fun carries => ?_
  obtain ⟨c, bearer | held⟩ := (State.stillCarries_iff _ _ _).mp carries
  · exact (gone c).1 bearer
  · exact (gone c).2 held

theorem State.bearerBurst_gone (gone : ∀ c, s.slotEntry b.slot ≠ .bearer c h ∧ s.slotEntry b.slot ≠ .held c h)
    (planned : s.planned b.slot = { role := .bearer b.carrier h, reported := false }) :
    s.bearerBurst b = s.markReported b.slot := by
  simp [State.bearerBurst, planned, State.accepts, PlanRole.carrier?, State.bearerFor, State.stillCarries_markReported gone]

theorem State.heldBurst_gone (gone : ∀ c, s.slotEntry b.slot ≠ .bearer c h ∧ s.slotEntry b.slot ≠ .held c h)
    (planned : s.planned b.slot = { role := .held b.carrier h, reported := false }) :
    s.heldBurst b = s.markReported b.slot := by
  simp [State.heldBurst, planned, State.accepts, PlanRole.carrier?, State.heldFor, State.stillCarries_markReported gone]

section
variable (away : s.find? h = none)
include away

theorem State.bearerBurst_unknown (asks : s.BearerAsks b h) : s.bearerBurst b = s.markReported b.slot := by
  obtain ⟨planned, carries⟩ := asks
  have carries' : (s.markReported b.slot).stillCarries b.slot h = true := carries
  have lookup := (s.find?_none_iff h).mp away
  simp [State.bearerBurst, planned, State.accepts, PlanRole.carrier?, State.bearerFor, carries', lookup]

theorem State.heldBurst_unknown (asks : s.HeldAsks b h) : s.heldBurst b = s.markReported b.slot := by
  obtain ⟨planned, carries⟩ := asks
  have carries' : (s.markReported b.slot).stillCarries b.slot h = true := carries
  have lookup := (s.find?_none_iff h).mp away
  simp [State.heldBurst, planned, State.accepts, PlanRole.carrier?, State.heldFor, carries', lookup]

end

theorem State.markReported_planned {slot : Nat} (place : slot < 16) :
    (s.markReported slot).planned slot = { role := (s.planned slot).role, reported := true } := by
  rw [s.planned_markReported, if_pos rfl, if_pos place]

theorem State.markReported_planned_other {slot k : Nat} (other : k ≠ slot) :
    (s.markReported slot).planned k = s.planned k := by
  rw [s.planned_markReported, if_neg other]

/-! ### The rows -/

section
variable (read : Burst.ofWord w = b)
include read

theorem exec_listenReport_eq (routed : s.listenBurst b = x) : exec (.listenReport w) s = .next x := by
  subst read routed
  rfl

theorem exec_bearerReport_eq (routed : s.bearerBurst b = x) : exec (.bearerReport w) s = .next x := by
  subst read routed
  rfl

theorem exec_heldReport_eq (routed : s.heldBurst b = x) : exec (.heldReport w) s = .next x := by
  subst read routed
  rfl

theorem exec_attach_eq (routed : s.beaconBurst .attach b = x) : exec (.attach w) s = .next x := by
  subst read routed
  rfl

theorem exec_presence_eq (routed : s.beaconBurst .presence b = x) : exec (.presence w) s = .next x := by
  subst read routed
  rfl

theorem exec_call_eq (routed : s.beaconBurst .call b = x) : exec (.call w) s = .next x := by
  subst read routed
  rfl

theorem exec_pageReply_eq (routed : s.beaconBurst .pageReply b = x) : exec (.pageReply w) s = .next x := by
  subst read routed
  rfl

/-- What is done with a report of no row in particular is done by each of the four beacon rows. -/
theorem exec_beaconRows_eq (routed : ∀ k, s.beaconBurst k b = x) : exec (.attach w) s = .next x
    ∧ exec (.presence w) s = .next x ∧ exec (.call w) s = .next x ∧ exec (.pageReply w) s = .next x :=
  ⟨exec_attach_eq read (routed _), exec_presence_eq read (routed _), exec_call_eq read (routed _),
    exec_pageReply_eq read (routed _)⟩

theorem exec_bursts_unaccepted (unaccepted : s.accepts b = false) : exec (.listenReport w) s = .next s
    ∧ exec (.attach w) s = .next s ∧ exec (.presence w) s = .next s ∧ exec (.call w) s = .next s
    ∧ exec (.pageReply w) s = .next s ∧ exec (.bearerReport w) s = .next s ∧ exec (.heldReport w) s = .next s := by
  obtain ⟨attach, presence, call, pageReply⟩ := exec_beaconRows_eq read (State.beaconBurst_unaccepted unaccepted)
  exact ⟨exec_listenReport_eq read (State.listenBurst_unaccepted unaccepted), attach, presence, call, pageReply,
    exec_bearerReport_eq read (State.bearerBurst_unaccepted unaccepted),
    exec_heldReport_eq read (State.heldBurst_unaccepted unaccepted)⟩

/-- A beacon report of no uplink message or of no handset is marked by the row it comes to. -/
theorem exec_beacon_unread (asks : s.BeaconAsks b) :
    (b.message = .none ∨ b.message = .clear →
      exec (.attach w) s = .next (s.markReported b.slot) ∧ exec (.presence w) s = .next (s.markReported b.slot)
      ∧ exec (.call w) s = .next (s.markReported b.slot) ∧ exec (.pageReply w) s = .next (s.markReported b.slot))
    ∧ (b.handset? = none → b.message = .presence → exec (.presence w) s = .next (s.markReported b.slot))
    ∧ (b.handset? = none → b.message = .call → exec (.call w) s = .next (s.markReported b.slot))
    ∧ (∀ tag, b.handset? = none → b.message = .pageReply tag → exec (.pageReply w) s = .next (s.markReported b.slot))
    ∧ (∀ epoch target, b.handset? = none → b.message = .attach epoch target →
        exec (.attach w) s = .next (s.markReported b.slot)) := by
  have marked {u : Uplink} (message : b.message.uplink? = some u) (unnamed : b.handset? = none) :=
    State.beaconBurst_unnamed asks message unnamed
  refine ⟨fun message => exec_beaconRows_eq read (State.beaconBurst_noUplink asks ?_),
    fun unnamed message => exec_presence_eq read (marked (u := .presence) ?_ unnamed),
    fun unnamed message => exec_call_eq read (marked (u := .call) ?_ unnamed),
    fun tag unnamed message => exec_pageReply_eq read (marked (u := .pageReply tag) ?_ unnamed),
    fun epoch target unnamed message => exec_attach_eq read (marked (u := .attach epoch target) ?_ unnamed)⟩
  · rcases message with message | message <;> rw [message] <;> rfl
  all_goals
    rw [message]
    rfl

/-- A beacon report that reaches a station out of service is marked by its own row. -/
theorem exec_beacon_outOfService (asks : s.BeaconAsks b) (outOfService : s.serving = false) :
    ((∃ epoch target, b.message = .attach epoch target) → exec (.attach w) s = .next (s.markReported b.slot))
    ∧ (b.message = .presence → exec (.presence w) s = .next (s.markReported b.slot))
    ∧ (b.message = .call → exec (.call w) s = .next (s.markReported b.slot))
    ∧ ((∃ tag, b.message = .pageReply tag) → exec (.pageReply w) s = .next (s.markReported b.slot)) := by
  have marked {u : Uplink} (message : b.message.uplink? = some u) :=
    State.beaconBurst_outOfService asks message outOfService
  refine ⟨fun ⟨epoch, target, message⟩ => exec_attach_eq read (marked (u := .attach epoch target) ?_),
    fun message => exec_presence_eq read (marked (u := .presence) ?_),
    fun message => exec_call_eq read (marked (u := .call) ?_),
    fun ⟨tag, message⟩ => exec_pageReply_eq read (marked (u := .pageReply tag) ?_)⟩
  all_goals
    rw [message]
    rfl

/-- A report of another row's message changes nothing. -/
theorem exec_beacon_otherMessage :
    ((∃ epoch target, b.message = .attach epoch target) → exec (.presence w) s = .next s ∧ exec (.call w) s = .next s
      ∧ exec (.pageReply w) s = .next s)
    ∧ (b.message = .presence → exec (.attach w) s = .next s ∧ exec (.call w) s = .next s ∧ exec (.pageReply w) s = .next s)
    ∧ (b.message = .call → exec (.attach w) s = .next s ∧ exec (.presence w) s = .next s ∧ exec (.pageReply w) s = .next s)
    ∧ ((∃ tag, b.message = .pageReply tag) → exec (.attach w) s = .next s ∧ exec (.presence w) s = .next s
      ∧ exec (.call w) s = .next s) := by
  have other {u : Uplink} (message : b.message.uplink? = some u) {k : UplinkKind} (apart : (u.kind == k) = false) :
      s.beaconBurst k b = s := State.beaconBurst_otherMessage message apart
  refine ⟨fun ⟨epoch, target, message⟩ => ?_, fun message => ?_, fun message => ?_, fun ⟨tag, message⟩ => ?_⟩
  all_goals have uplink := congrArg BurstMessage.uplink? message
  · exact ⟨exec_presence_eq read (other uplink rfl), exec_call_eq read (other uplink rfl),
      exec_pageReply_eq read (other uplink rfl)⟩
  · exact ⟨exec_attach_eq read (other uplink rfl), exec_call_eq read (other uplink rfl),
      exec_pageReply_eq read (other uplink rfl)⟩
  · exact ⟨exec_attach_eq read (other uplink rfl), exec_presence_eq read (other uplink rfl),
      exec_pageReply_eq read (other uplink rfl)⟩
  · exact ⟨exec_attach_eq read (other uplink rfl), exec_presence_eq read (other uplink rfl),
      exec_call_eq read (other uplink rfl)⟩

end

end

/-- Settles O28: the fields by their places in the word, the frame plan record by its blocks, and each row by what the plan
in force asks for. -/
theorem burstReportsAreReadOrDiscarded : Obligations.BurstReportsAreReadOrDiscarded := by
  refine ⟨fun w b s read asks => exec_beacon_unread read asks,
    fun w slot u0 carrier sync check level origin present u1 kind identity argument laid => ?_,
    fun b h => ⟨Burst.forHandset_stranger, fun lost => Burst.forHandset_lost lost h, Burst.forHandset_own⟩,
    fun p => ⟨p.radioRecord_length, rfl, fun k slot => SlotPlanner.radioRecord_slot, fun k m sent => ?_⟩,
    fun r c h q => ?_, fun d h station m known f r c t => ?_, ⟨rfl, rfl⟩,
    fun w b s read why => exec_bursts_unaccepted read (s.accepts_false b (why.imp_right (Or.imp_right PlanRole.carrier?_other))),
    fun w b h s read gone => ⟨fun planned => exec_bearerReport_eq read (State.bearerBurst_gone gone planned),
      fun planned => exec_heldReport_eq read (State.heldBurst_gone gone planned)⟩,
    fun w b h s read away => ⟨fun asks => exec_bearerReport_eq read (State.bearerBurst_unknown away asks),
      fun asks => exec_heldReport_eq read (State.heldBurst_unknown away asks)⟩,
    State.stillCarries_iff,
    fun s slot place => ⟨State.markReported_planned place, fun k => State.markReported_planned_other, rfl⟩,
    fun w b s read => ⟨fun other => exec_listenReport_eq read (State.listenBurst_otherRole other),
      fun other => exec_bearerReport_eq read (State.bearerBurst_otherRole other),
      fun other => exec_heldReport_eq read (State.heldBurst_otherRole other),
      fun other => exec_beaconRows_eq read (State.beaconBurst_otherRole other), exec_beacon_otherMessage read⟩,
    fun w b s read => ⟨fun asks unjoined => exec_listenReport_eq read (State.listenBurst_unjoined asks unjoined),
      exec_beacon_outOfService read⟩⟩
  · obtain ⟨slotAt, carrierAt, levelAt, originAt, kindAt, identityAt, argumentAt⟩ := burstWord_numbers laid
    obtain ⟨syncAt, checkAt, presentAt⟩ := burstWord_flags laid
    refine ⟨congrArg BitVec.toNat slotAt, congrArg BitVec.toNat carrierAt, syncAt, checkAt, congrArg BitVec.toNat levelAt, ?_,
      ?_, fun missing => Burst.ofWord_unreadable ?_, fun hs hc hp => ?_⟩
    · rw [← Origin.ofCode_eq, ← originAt]
      rfl
    · rw [Burst.handset?_ofWord, syncAt, checkAt, presentAt, originAt, identityAt]
    · rwa [syncAt, checkAt, presentAt]
    · obtain ⟨named, message⟩ := Burst.ofWord_readable (syncAt.trans hs) (checkAt.trans hc) (presentAt.trans hp)
      rw [identityAt] at named
      rw [kindAt, argumentAt] at message
      refine ⟨named, ?_, ?_, ?_, ?_, ?_, fun other => message.trans (BurstMessage.ofCode_none other argument)⟩
      all_goals
        rintro rfl
        exact message
  · rw [SlotPlanner.radioRecord_message sent, SentMessage.record_eq]
  · refine ⟨?_, ?_, ?_, ?_, ?_⟩
    all_goals
      rintro rfl
      exact ⟨rfl, rfl⟩
  · refine ⟨?_, ?_, ?_, ?_, ?_, ?_⟩
    all_goals
      rintro rfl
      exact ⟨rfl, rfl, rfl⟩

end Sys2Proof.Machine
end
